-- ==== Sys2Proof/Word.lean ====
section
/-! DEFINITION. The word types of PMKE: bytes, byte arrays of fixed length, the Counter, host addresses and the
BUS16 word (spec/00_scope.md R7, R9, R10; spec/30_encoding.md R91). -/

namespace Sys2Proof

/-- A byte, an unsigned integer 0 to 255 (00 R9). -/
abbrev Byte := BitVec 8

/-- A cipher block or CurrentBlock: BLOCK_BYTES = 16 (00 R7). -/
abbrev Block := Vector Byte 16

/-- A 32-byte key: KEY_BYTES = 32 (00 R7). -/
abbrev Key := Vector Byte 32

/-- A word of the key schedule, 4 bytes (40 R133). -/
abbrev KeyWord := Vector Byte 4

/-- A round-key schedule: 15 round keys of 16 bytes (10 R30). -/
abbrev RoundKeys := Vector Block 15

/-- The Counter: COUNTER_BITS = 128 (00 R7, 10 R34). -/
abbrev Counter := BitVec 128

/-- A 7-bit host address, 0x00 to 0x7F (10 R21). -/
abbrev HostAddr := BitVec 7

/-- A host transaction word, format BUS16 (30 R91). -/
abbrev BusWord := BitVec 16

end Sys2Proof
end

