-- ==== Sys2Proof/Syntax.lean ====
section
/-! DEFINITION. The instructions: one constructor per row of spec/opcode_table.json (spec/30_encoding.md R91 to
R94). The `d` field of a read word, which the engine ignores (30 R91), is kept so that no bit of a word is lost
(log entry 8). -/

namespace Sys2Proof

/-- What one BUS16 word asks for (30 R94). -/
inductive Instr where
  /-- SETKEY, the source's setKey (41 R161). -/
  | setkey
  /-- ENC, the source's encryptBlock (41 R163). -/
  | enc
  /-- DEC, the source's decryptBlock (41 R164). -/
  | dec
  /-- GINIT, the explicit first use of the generator (42 R191). -/
  | ginit
  /-- ADVANCE, the source's advanceBlock (42 R192). -/
  | advance
  /-- NEXTBYTE, the source's getNextByte (42 R193). -/
  | nextbyte
  /-- ILLEGAL: a write to CMD of a byte that is no command code (30 R96). -/
  | illegal (op : Byte)
  /-- ISINIT, the source's isInitialized: a read of STATUS (41 R162). -/
  | isinit (d : Byte)
  /-- RDBYTE: a read of BYTEOUT (10 R25, 30 R99). -/
  | rdbyte (d : Byte)
  /-- RD: a host read of any other address (20 R61). -/
  | rd (a : HostAddr) (d : Byte)
  /-- WR: a host write to any address but CMD (20 R62). -/
  | wr (a : HostAddr) (d : Byte)
  deriving DecidableEq, Repr

end Sys2Proof
end

