-- ==== Sys2Proof/WellFormed.lean ====
section
/-! DEFINITION. Which terms of Instr stand for a BUS16 word: the decoder compares the command byte and the address
first, so ILLEGAL never carries a command code, RD never the address of ISINIT or RDBYTE, and WR never the address
of CMD (spec/30_encoding.md R93, R94; priorities of spec/opcode_table.json). -/

namespace Sys2Proof

/-- The six command codes of CMD8 (30 R93). -/
def commandCodes : List Byte := [0x01#8, 0x02#8, 0x03#8, 0x10#8, 0x11#8, 0x12#8]

/-- The instruction is the reading of some BUS16 word. -/
def Instr.wellFormed : Instr → Bool
  | .setkey | .enc | .dec | .ginit | .advance | .nextbyte => true
  | .illegal op => !commandCodes.contains op
  | .isinit _ | .rdbyte _ => true
  | .rd a _ => a != 0x41#7 && a != 0x42#7
  | .wr a _ => a != 0x40#7

end Sys2Proof
end

