-- ==== Sys2Proof/Decode.lean ====
section
/-! DEFINITION. The decoder of BUS16 words, in the order of spec/30_encoding.md R94, on words and on bytes, and the
encoder written from the tables of R91 and R93. -/

namespace Sys2Proof

/-- The command that CMD8 code `op` selects; any other byte is illegal (30 R93, R94, R96). -/
def decodeCommand (op : Byte) : Instr :=
  if op = 0x01#8 then .setkey
  else if op = 0x02#8 then .enc
  else if op = 0x03#8 then .dec
  else if op = 0x10#8 then .ginit
  else if op = 0x11#8 then .advance
  else if op = 0x12#8 then .nextbyte
  else .illegal op

/-- A host read of address `a`, its `d` field carried along (30 R91, R94); the rows ISINIT and RDBYTE of the opcode
table are the reads of STATUS and BYTEOUT. -/
def decodeRead (a : HostAddr) (d : Byte) : Instr :=
  if a = 0x41#7 then .isinit d
  else if a = 0x42#7 then .rdbyte d
  else .rd a d

/-- The reading of one BUS16 word: total (30 R94). -/
def decodeWord (t : BusWord) : Instr :=
  let a : HostAddr := t.extractLsb' 8 7
  let d : Byte := t.extractLsb' 0 8
  if t.getLsbD 15 = false then decodeRead a d
  else if a ≠ 0x40#7 then .wr a d
  else decodeCommand d

/-- Why a list of bytes holds no BUS16 word at its start. -/
inductive DecodeError where
  /-- There is no byte left. -/
  | noWord
  /-- There is one byte, half a word. -/
  | halfWord
  deriving DecidableEq, Repr

/-- Decoding from bytes, the high byte of a word first (30 R91), with the bytes that are left. -/
def decode : List Byte → Except DecodeError (Instr × List Byte)
  | [] => .error .noWord
  | [_] => .error .halfWord
  | hi :: lo :: rest => .ok (decodeWord (hi ++ lo), rest)

/-- A BUS16 word from its three fields (30 R91). -/
def busWord (w : Bool) (a : HostAddr) (d : Byte) : BusWord :=
  BitVec.ofBool w ++ a ++ d

/-- The BUS16 word of an instruction (30 R91, R93, R98, R99). -/
def encode : Instr → BusWord
  | .setkey => 0xC001#16
  | .enc => 0xC002#16
  | .dec => 0xC003#16
  | .ginit => 0xC010#16
  | .advance => 0xC011#16
  | .nextbyte => 0xC012#16
  | .illegal op => busWord true 0x40#7 op
  | .isinit d => busWord false 0x41#7 d
  | .rdbyte d => busWord false 0x42#7 d
  | .rd a d => busWord false a d
  | .wr a d => busWord true a d

/-- A word as the two bytes of its printed form, high byte first (30 R91). -/
def wordBytes (t : BusWord) : List Byte := [t.extractLsb' 8 8, t.extractLsb' 0 8]

/-- What the decoder reads from an instruction whose bits, numbered as spec/opcode_table.json numbers them, are `w`;
bits from `nbits` up are zero. Every instruction is one 16-bit word, so more bits are no instruction. -/
def decodeTableWord (nbits w : Nat) : Option Instr :=
  if nbits ≤ 16 ∧ w < 2 ^ nbits then
    match decode (wordBytes (BitVec.ofNat 16 w)) with
    | .ok (i, []) => some i
    | _ => none
  else none

end Sys2Proof
end

