-- ==== Sys2Proof/Config.lean ====
section
/-! DEFINITION. What the spec leaves to draws and to the platform: values with no body, about which nothing can be
proved (spec/00_scope.md R8, R12; spec/10_state.md R43; log entries 4, 5, 6). -/

namespace Sys2Proof

/-- The outcome of one StoreWrite (20 R67): `ok`, or `fail`, where the draw from (store, absent) that
PERSIST_FAIL_CORRUPTS allows is part of the outcome. -/
inductive WriteOutcome where
  /-- The write took effect. -/
  | ok
  /-- The write failed and the store keeps its content. -/
  | failKept
  /-- The write failed; where PERSIST_FAIL_CORRUPTS holds the store becomes absent, else it keeps its content. -/
  | failLost
  deriving DecidableEq, Repr, Inhabited

/-- Byte `i` of the entropy port's answer to draw number `draw`, a request for `n` bytes presented with sequence
number `seq` (42 R185). FREE VALUE: "The model puts no law on `v`". -/
opaque Config.entropyByte (draw n : Nat) (seq : BitVec 64) (i : Nat) : Byte

/-- The outcome of the StoreWrite that is draw number `draw` (20 R67). FREE VALUE. -/
opaque Config.writeOutcome (draw : Nat) : WriteOutcome

/-- RECORD_CONSISTENT of a platform that has a check of its own (20 R65, 92 D14: OPEN). FREE VALUE. -/
opaque Config.recordConsistent (key : Key) (ctr : Counter) (block : Block) : Bool

end Sys2Proof
end

