-- ==== Sys2Proof/Machine/State.lean ====
section
/-! DEFINITION. The state of a PMKE system as plain data (spec/10_state.md R20 to R43), the reasons a step can stop,
and the state right after reset (R40). -/

namespace Sys2Proof.Machine

/-- The generator's life cycle (10 R32, 42 R181). -/
inductive GState where
  | uninitialized
  | loaded
  | freshlySynthesized
  | ready
  deriving DecidableEq, Repr

/-- The causes of a fatal error (60 R231). -/
inductive Cause where
  /-- KeyingError: ENC or DEC with keyedU = 0. -/
  | notKeyed
  /-- "wrong key size": SETKEY with an incomplete key. -/
  | keySize
  /-- A write to CMD of a byte that is no command code. -/
  | illegalCommand
  deriving DecidableEq, Repr

/-- What one setKey leaves behind: the two schedules of a cipher context (10 R30). -/
structure Context where
  /-- `ek[0..14]`, the forward schedule. -/
  ek : RoundKeys
  /-- `dk[0..14]`, the inverse schedule. -/
  dk : RoundKeys
  deriving DecidableEq, Repr

/-- The tuple (CipherKey, Counter, CurrentBlock) that the durable record holds (00 R13, 10 R33 to R35). -/
structure Triple where
  key : Key
  ctr : Counter
  block : Block
  deriving DecidableEq, Repr

/-- Which predicate RECORD_CONSISTENT is (00 R8, 92 D14). -/
inductive RecordCheck where
  /-- The spec's default, constant true. -/
  | acceptAll
  /-- A platform's own predicate, `Config.recordConsistent`. -/
  | platform
  deriving DecidableEq, Repr

/-- The two OPEN parameters of 00 R8; no step changes them (10 R43; log entry 6). -/
structure Params where
  /-- RECORD_CONSISTENT (20 R65). -/
  recordCheck : RecordCheck
  /-- PERSIST_FAIL_CORRUPTS (20 R67). -/
  persistFailCorrupts : Bool
  deriving DecidableEq, Repr

/-- One element of a host program (30 R91), or a move of the agent that may change the store between a reset and
the next generator initialisation (70 R262; log entry 9). -/
inductive Item where
  /-- A BUS16 word: one host read or write. -/
  | word (w : BusWord)
  /-- The out-of-band event RESET (70 R260). -/
  | reset
  /-- Another agent replaces the content of the durable store (70 R262). -/
  | outsideStore (content : Option (List Byte))
  deriving DecidableEq, Repr

/-- The state of the system. The first group is the engine's and is lost at reset, `store` survives reset (10 R20);
the rest are the inputs, parameters and devices of the model that 10 R43 and R27 name. -/
structure State where
  /-- `KEYIN[0..31]`, write only (10 R22). -/
  keyin : Key
  /-- `keyin_mask`: which key bytes the host has written since the last SETKEY or reset (10 R22). -/
  keyinMask : BitVec 32
  /-- `DIN[0..15]` (10 R23). -/
  din : Block
  /-- `DOUT[0..15]` (10 R24). -/
  dout : Block
  /-- `BYTEOUT` (10 R25). -/
  byteout : Byte
  /-- Context U: `keyedU` is "not none", and `ekU`, `dkU` hold no value while it is 0 (10 R30, R31). -/
  ctxU : Option Context
  /-- Context G: `keyedG`, `ekG`, `dkG` (10 R30, R31). -/
  ctxG : Option Context
  /-- `gstate` (10 R32). -/
  gstate : GState
  /-- `key`, `ctr`, `block`: no value while Uninitialized (10 R33 to R35, R40). -/
  triple : Option Triple
  /-- `cursor`, 0 to 16: no value while Uninitialized (10 R36, R40). -/
  cursor : Option (Fin 17)
  /-- `seq`, the draw sequence counter (10 R37). -/
  seq : BitVec 64
  /-- `fatal` (10 R29). -/
  fatal : Bool
  /-- `cause` (10 R28, 60 R231). -/
  cause : BitVec 4
  /-- `store`: absent or a byte string of any length (10 R39). -/
  store : Option (List Byte)
  /-- The host program (10 R27, 30 R91). -/
  program : List Item
  /-- The index of the next item of the host program (10 R27). -/
  pos : Nat
  /-- The bytes the RD items have returned, in order (30 R91, 70 R266). -/
  returned : List Byte
  /-- How many draws have been taken: the model's own counter (log entry 4). -/
  draws : Nat
  /-- Bytes the entropy port will answer with; beyond them its answers are free values (42 R185; log entry 4). -/
  entropyIn : List Byte
  /-- Outcomes of coming StoreWrites; beyond them outcomes are free values (20 R67; log entry 5). -/
  outcomesIn : List WriteOutcome
  /-- The open parameters (00 R8). -/
  params : Params
  deriving DecidableEq, Repr

/-- Why a step stops with a fault. -/
inductive Fault where
  /-- ADVANCE or NEXTBYTE reads a Counter, block, cursor or round key that holds no value: 93 U15, "a model that
  could read them must fault, not return zero". Safe: 10 R41 excludes the states where it could happen. -/
  | noValue
  deriving DecidableEq, Repr

/-- Why a step is refused. -/
inductive Refusal where
  /-- An instruction without a meaning yet, raised by exec's arms only. Safe: the run stops. -/
  | notModelled (mnemonic : String)
  /-- Another agent writes the store when gstate is not Uninitialized: 70 R272, "Such runs are outside the model"
  (93 U9: refuse). Raised by the outsideStore item only. Unsafe, as R272 says: a claim rests on the single-owner
  premise. -/
  | foreignStoreWrite
  deriving DecidableEq, Repr

/-- The outcome of an operation. -/
abbrev Result := Host.Outcome State Fault Refusal

/-- The spec's defaults of the open parameters (00 R8). -/
def Params.default : Params := { recordCheck := .acceptAll, persistFailCorrupts := false }

/-- The machine right after reset (10 R40). `store` is absent here by log entry 1, and no host program and no input
is lined up. -/
def State.reset : State where
  keyin := Vector.replicate 32 0x00#8
  keyinMask := 0#32
  din := Vector.replicate 16 0x00#8
  dout := Vector.replicate 16 0x00#8
  byteout := 0x00#8
  ctxU := none
  ctxG := none
  gstate := .uninitialized
  triple := none
  cursor := none
  seq := 0#64
  fatal := false
  cause := 0#4
  store := none
  program := []
  pos := 0
  returned := []
  draws := 0
  entropyIn := []
  outcomesIn := []
  params := Params.default

end Sys2Proof.Machine
end

