-- ==== Sys2Proof/Machine/Flags.lean ====
section
/-! DEFINITION. The flags, the cause codes and the STATUS byte (spec/10_state.md R28, R29;
spec/60_exceptions.md R231). There are no condition codes (10 R29). -/

namespace Sys2Proof.Machine

/-- `keyedU`: the answer of isInitialized() for context U (10 R28, R29). -/
def State.keyedU (s : State) : Bool := s.ctxU.isSome

/-- `keyedG` (10 R29). -/
def State.keyedG (s : State) : Bool := s.ctxG.isSome

/-- The cause code of a fatal error (60 R231). -/
def causeCode : Cause → BitVec 4
  | .notKeyed => 1#4
  | .keySize => 2#4
  | .illegalCommand => 3#4

/-- STATUS: CAUSE in bits 7:4, bits 3:2 zero, FATAL bit 1, KEYED bit 0 (10 R28, 20 R61). -/
def statusByte (s : State) : Byte :=
  s.cause ++ 0#2 ++ BitVec.ofBool s.fatal ++ BitVec.ofBool s.keyedU

/-- Every key byte has been written since the last SETKEY or reset: `keyin_mask = 0xFFFFFFFF` (41 R161). -/
def State.keyComplete (s : State) : Bool := s.keyinMask == 0xFFFFFFFF#32

end Sys2Proof.Machine
end

