-- ==== Sys2Proof/Machine/Operands.lean ====
section
/-! DEFINITION. The operand and result registers and the host's access to them: what each address reads as, what a
write to an operand register stores, and where a read's byte goes (spec/10_state.md R21 to R26;
spec/20_memory.md R61, R62; spec/30_encoding.md R91, R95). -/

namespace Sys2Proof.Machine

/-- `MemRead(a, 1)`: the byte a host read of address `a` returns (20 R61). -/
def hostReadByte (s : State) (a : HostAddr) : Byte :=
  let n := a.toNat
  if n < 0x20 then 0x00#8
  else if h : n < 0x30 then s.din[n - 0x20]
  else if h : n < 0x40 then s.dout[n - 0x30]
  else if n = 0x40 then 0x00#8
  else if n = 0x41 then statusByte s
  else if n = 0x42 then s.byteout
  else 0x00#8

/-- The byte a read returned joins the results of the run (30 R91, 70 R266). -/
def respond (b : Byte) (s : State) : State := { s with returned := s.returned ++ [b] }

/-- `KEYIN[i] <- v ; keyin_mask[i] <- 1` (10 R22). -/
def writeKeyin (i : Nat) (h : i < 32) (v : Byte) (s : State) : State :=
  { s with keyin := s.keyin.set i v, keyinMask := s.keyinMask ||| (1#32 <<< i) }

/-- `DIN[i] <- v` (10 R23). -/
def writeDin (i : Nat) (h : i < 16) (v : Byte) (s : State) : State :=
  { s with din := s.din.set i v }

/-- What a host write to an address other than CMD does when `fatal = 0`: it is ignored outside KEYIN and DIN
(20 R62). -/
def writeRegister (a : HostAddr) (v : Byte) (s : State) : State :=
  let n := a.toNat
  if h : n < 0x20 then writeKeyin n h v s
  else if h : n < 0x30 then writeDin (n - 0x20) (by omega) v s
  else s

end Sys2Proof.Machine
end

