-- ==== Sys2Proof/Machine/Cipher.lean ====
section
/-! DEFINITION. The block cipher: the field GF(2^8), the substitution box, the round transformations, the key
schedule, Encrypt and Decrypt (spec/40_cipher_primitives.md R120 to R143). Pure functions of their arguments.
The three whole functions are irreducible so that no proof computes a cipher by accident; the kernel still evaluates
them. -/

namespace Sys2Proof.Machine

/-- The byte string whose hex digits, two per byte and index 0 first, are those of `v` (00 R9). -/
def bytesOfNat (n v : Nat) : Vector Byte n :=
  Vector.ofFn fun i => BitVec.ofNat 8 (v >>> (8 * (n - 1 - i.val)))

/-- Byte strings of equal length are xor-ed element by element (00 R10). -/
def xorBytes {n : Nat} (a b : Vector Byte n) : Vector Byte n :=
  Vector.ofFn fun i => a[i] ^^^ b[i]

/-! ### The field (40 R121 to R124) -/

/-- `XTime(b)`, multiplication by x (40 R122). -/
def xTime (b : Byte) : Byte :=
  if b.getLsbD 7 then (b <<< 1) ^^^ 0x1B#8 else b <<< 1

/-- The loop of `GMul` with the number of passes left and the product so far (40 R123). -/
def gMulLoop : Nat → Byte → Byte → Byte → Byte
  | 0, _, _, p => p
  | n + 1, a, b, p => gMulLoop n (xTime a) (b >>> 1) (if b.getLsbD 0 then p ^^^ a else p)

/-- `GMul(a, b)`, the product in the field (40 R123). -/
def gMul (a b : Byte) : Byte := gMulLoop 8 a b 0x00#8

/-- The candidates of `GInv` searched from `n` down: the first `b` with GMul(a, b) = 1, else 0. -/
def gInvFrom (a : Byte) : Nat → Byte
  | 0 => 0x00#8
  | n + 1 => if gMul a (BitVec.ofNat 8 (n + 1)) = 0x01#8 then BitVec.ofNat 8 (n + 1) else gInvFrom a n

/-- `GInv(a)`: 0 for 0, else the byte whose product with `a` is 1 (40 R124). -/
def gInv (a : Byte) : Byte := gInvFrom a 255

/-! ### The substitution box (40 R125) -/

/-- The SBox table of 40 R125, one number per row of the spec's table. -/
def sBoxRows : List Nat :=
  [0x637c777bf26b6fc53001672bfed7ab76, 0xca82c97dfa5947f0add4a2af9ca472c0,
   0xb7fd9326363ff7cc34a5e5f171d83115, 0x04c723c31896059a071280e2eb27b275,
   0x09832c1a1b6e5aa0523bd6b329e32f84, 0x53d100ed20fcb15b6acbbe394a4c58cf,
   0xd0efaafb434d338545f9027f503c9fa8, 0x51a3408f929d38f5bcb6da2110fff3d2]
  ++
  [0xcd0c13ec5f974417c4a77e3d645d1973, 0x60814fdc222a908846eeb814de5e0bdb,
   0xe0323a0a4906245cc2d3ac629195e479, 0xe7c8376d8dd54ea96c56f4ea657aae08,
   0xba78252e1ca6b4c6e8dd741f4bbd8b8a, 0x703eb5664803f60e613557b986c11d9e,
   0xe1f8981169d98e949b1e87e9ce5528df, 0x8ca1890dbfe6426841992d0fb054bb16]

/-- The InvSBox table of 40 R125. -/
def invSBoxRows : List Nat :=
  [0x52096ad53036a538bf40a39e81f3d7fb, 0x7ce339829b2fff87348e4344c4dee9cb,
   0x547b9432a6c2233dee4c950b42fac34e, 0x082ea16628d924b2765ba2496d8bd125,
   0x72f8f66486689816d4a45ccc5d65b692, 0x6c704850fdedb9da5e154657a78d9d84,
   0x90d8ab008cbcd30af7e45805b8b34506, 0xd02c1e8fca3f0f02c1afbd0301138a6b]
  ++
  [0x3a9111414f67dcea97f2cfcef0b4e673, 0x96ac7422e7ad3585e2f937e81c75df6e,
   0x47f11a711d29c5896fb7620eaa18be1b, 0xfc563e4bc6d279209adbc0fe78cd5af4,
   0x1fdda8338807c731b11210592780ec5f, 0x60517fa919b54a0d2de57a9f93c99cef,
   0xa0e03b4dae2af5b0c8ebbb3c83539961, 0x172b047eba77d626e169146355210c7d]

/-- The entry of a table of 40 R125: row the high hex digit of `a`, column the low one. -/
def tableByte (rows : List Nat) (a : Byte) : Byte :=
  BitVec.ofNat 8 (rows.getD (a.toNat / 16) 0 >>> (8 * (15 - a.toNat % 16)))

/-- `SBox(a)` (40 R125, R142). -/
def sBox (a : Byte) : Byte := tableByte sBoxRows a

/-- `InvSBox(a)` (40 R125). -/
def invSBox (a : Byte) : Byte := tableByte invSBoxRows a

/-! ### The round transformations (40 R126 to R132) -/

/-- `SubBytes` (40 R127). -/
def subBytes (s : Block) : Block := Vector.ofFn fun j => sBox s[j]

/-- `InvSubBytes` (40 R127). -/
def invSubBytes (s : Block) : Block := Vector.ofFn fun j => invSBox s[j]

/-- `ShiftRows`: the byte at row r, column c comes from column (c + r) mod 4 of its row (40 R126, R128). -/
def shiftRows (s : Block) : Block := Vector.ofFn fun i =>
  s[i.val % 4 + 4 * ((i.val / 4 + i.val % 4) % 4)]'(by omega)

/-- `InvShiftRows`: row r is rotated right by r positions (40 R129). -/
def invShiftRows (s : Block) : Block := Vector.ofFn fun i =>
  s[i.val % 4 + 4 * ((i.val / 4 + 4 - i.val % 4) % 4)]'(by omega)

/-- One column of `MixColumns` (40 R130). -/
def mixColumn (a0 a1 a2 a3 : Byte) : KeyWord :=
  #v[gMul 0x02#8 a0 ^^^ gMul 0x03#8 a1 ^^^ a2 ^^^ a3,
     a0 ^^^ gMul 0x02#8 a1 ^^^ gMul 0x03#8 a2 ^^^ a3,
     a0 ^^^ a1 ^^^ gMul 0x02#8 a2 ^^^ gMul 0x03#8 a3,
     gMul 0x03#8 a0 ^^^ a1 ^^^ a2 ^^^ gMul 0x02#8 a3]

/-- One column of `InvMixColumns` (40 R131). -/
def invMixColumn (a0 a1 a2 a3 : Byte) : KeyWord :=
  #v[gMul 0x0E#8 a0 ^^^ gMul 0x0B#8 a1 ^^^ gMul 0x0D#8 a2 ^^^ gMul 0x09#8 a3,
     gMul 0x09#8 a0 ^^^ gMul 0x0E#8 a1 ^^^ gMul 0x0B#8 a2 ^^^ gMul 0x0D#8 a3,
     gMul 0x0D#8 a0 ^^^ gMul 0x09#8 a1 ^^^ gMul 0x0E#8 a2 ^^^ gMul 0x0B#8 a3,
     gMul 0x0B#8 a0 ^^^ gMul 0x0D#8 a1 ^^^ gMul 0x09#8 a2 ^^^ gMul 0x0E#8 a3]

/-- A function of the four bytes of a column, applied to each of the four columns (40 R126). -/
def onColumns (f : Byte → Byte → Byte → Byte → KeyWord) (s : Block) : Block := Vector.ofFn fun i =>
  (f (s[4 * (i.val / 4)]'(by omega)) (s[4 * (i.val / 4) + 1]'(by omega))
     (s[4 * (i.val / 4) + 2]'(by omega)) (s[4 * (i.val / 4) + 3]'(by omega)))[i.val % 4]'(by omega)

/-- `MixColumns` (40 R130). -/
def mixColumns (s : Block) : Block := onColumns mixColumn s

/-- `InvMixColumns` (40 R131). -/
def invMixColumns (s : Block) : Block := onColumns invMixColumn s

/-- `AddRoundKey` (40 R132). -/
def addRoundKey (s rk : Block) : Block := xorBytes s rk

/-! ### The key schedule (40 R133 to R138) -/

/-- `RotWord` (40 R133). -/
def rotWord (w : KeyWord) : KeyWord := #v[w[1], w[2], w[3], w[0]]

/-- `SubWord` (40 R133). -/
def subWord (w : KeyWord) : KeyWord := Vector.ofFn fun i => sBox w[i]

/-- `rc_j`: rc_1 = 1 and each next one XTime of the one before (40 R134). -/
def roundConstant : Nat → Byte
  | 0 => 0x00#8
  | 1 => 0x01#8
  | j + 1 => xTime (roundConstant j)

/-- `Rcon(j)` (40 R134). -/
def rcon (j : Nat) : KeyWord := #v[roundConstant j, 0x00#8, 0x00#8, 0x00#8]

/-- Word `i` of a schedule, for an index past the words there are a zero word (never read). -/
def scheduleWord (w : List KeyWord) (i : Nat) : KeyWord := w.getD i (Vector.replicate 4 0x00#8)

/-- The body of the loop of `ExpandKey`: the word that follows the words `w` (40 R136). -/
def nextScheduleWord (k : Key) (w : List KeyWord) : KeyWord :=
  let i := w.length
  if h : i < 8 then #v[k[4 * i], k[4 * i + 1], k[4 * i + 2], k[4 * i + 3]]
  else
    let t := scheduleWord w (i - 1)
    let t' :=
      if i % 8 = 0 then xorBytes (subWord (rotWord t)) (rcon (i / 8))
      else if i % 8 = 4 then subWord t
      else t
    xorBytes (scheduleWord w (i - 8)) t'

/-- The first `n` words of the schedule. -/
def expandKeyTo (k : Key) : Nat → List KeyWord
  | 0 => []
  | n + 1 => expandKeyTo k n ++ [nextScheduleWord k (expandKeyTo k n)]

/-- `ExpandKey(k)`, the 60 words of 40 R135, R136. -/
def expandKey (k : Key) : List KeyWord := expandKeyTo k 60

/-- `KeySchedule(k)` (40 R137). -/
@[irreducible] def keySchedule (k : Key) : RoundKeys :=
  Vector.ofFn fun r => Vector.ofFn fun j =>
    (scheduleWord (expandKey k) (4 * r.val + j.val / 4))[j.val % 4]'(by omega)

/-- The inverse schedule, the forward schedule read backwards (40 R138). -/
def inverseSchedule (ek : RoundKeys) : RoundKeys :=
  Vector.ofFn fun r => ek[14 - r.val]'(by omega)

/-! ### Encrypt and Decrypt (40 R139, R140) -/

/-- The round keys 1 to 13 of a schedule, in order: those of the thirteen full rounds. -/
def middleKeys (rks : RoundKeys) : List Block := (rks.toList.drop 1).take 13

/-- A full round of `Encrypt` (40 R139). -/
def encryptRound (s rk : Block) : Block := addRoundKey (mixColumns (shiftRows (subBytes s))) rk

/-- `Encrypt(ek, p)` (40 R139). -/
@[irreducible] def encrypt (ek : RoundKeys) (p : Block) : Block :=
  let s := (middleKeys ek).foldl encryptRound (addRoundKey p ek[0])
  addRoundKey (shiftRows (subBytes s)) ek[14]

/-- A full round of `Decrypt` (40 R140). -/
def decryptRound (s rk : Block) : Block := invMixColumns (addRoundKey (invSubBytes (invShiftRows s)) rk)

/-- `Decrypt(dk, c)` (40 R140). -/
@[irreducible] def decrypt (dk : RoundKeys) (c : Block) : Block :=
  let s := (middleKeys dk).foldl decryptRound (addRoundKey c dk[0])
  addRoundKey (invSubBytes (invShiftRows s)) dk[14]

end Sys2Proof.Machine
end

