-- ==== Sys2Proof/Machine/Record.lean ====
section
/-! DEFINITION. The counter's conversion to bytes and the durable record's two functions, SerializeRecord and
ParseRecord (spec/20_memory.md R64, R65, R68), and the pure core of an advance (spec/42_generator_commands.md R190).
The two functions that read bytes back are irreducible so that no proof computes them by accident; the kernel still
evaluates them. -/

namespace Sys2Proof.Machine

/-- `CtrByte(c, i) = c[8i+7 : 8i]` (20 R68). -/
def ctrByte (c : Counter) (i : Nat) : Byte := c.extractLsb' (8 * i) 8

/-- `CtrBytes(c)`, least significant byte first (20 R68). -/
def ctrBytes (c : Counter) : Block := Vector.ofFn fun i => ctrByte c i.val

/-- The sum over i of B[i] * 2^(8i) of a byte string (20 R68). -/
def littleEndian : List Byte → Nat
  | [] => 0
  | b :: bs => b.toNat + 256 * littleEndian bs

/-- `CtrFromBytes(B)` (20 R68). -/
@[irreducible] def ctrFromBytes (b : Block) : Counter := BitVec.ofNat 128 (littleEndian b.toList)

/-- `CtrLow(c) = c[63:0]` (20 R68). -/
def ctrLow (c : Counter) : BitVec 64 := c.extractLsb' 0 64

/-- `CtrHigh(c) = c[127:64]` (20 R68). -/
def ctrHigh (c : Counter) : BitVec 64 := c.extractLsb' 64 64

/-- `SerializeRecord(key, ctr, block)` (20 R64, R65). -/
def serializeRecord (t : Triple) : List Byte :=
  t.key.toList ++ (ctrBytes t.ctr).toList ++ t.block.toList

/-- RECORD_CONSISTENT under the parameters `p` (00 R8, 20 R65). -/
def recordConsistent (p : Params) (t : Triple) : Bool :=
  match p.recordCheck with
  | .acceptAll => true
  | .platform => Config.recordConsistent t.key t.ctr t.block

/-- The fields of a record of 64 bytes, at the offsets of 20 R64. -/
@[irreducible] def recordFields (s : List Byte) (h : s.length = 64) : Triple where
  key := Vector.ofFn fun i : Fin 32 => s[i.val]
  ctr := ctrFromBytes (Vector.ofFn fun i : Fin 16 => s[32 + i.val])
  block := Vector.ofFn fun i : Fin 16 => s[48 + i.val]

/-- `ParseRecord(s)`: `none` is its answer `invalid` (20 R65). -/
def parseRecord (p : Params) : Option (List Byte) → Option Triple
  | none => none
  | some s =>
    if h : s.length = 64 then
      if recordConsistent p (recordFields s h) then some (recordFields s h) else none
    else none

/-- The plaintext of an advance: the previous block xor-ed with the bytes of the incremented counter (42 R189). -/
def advancePlaintext (ctr : Counter) (block : Block) : Block := xorBytes block (ctrBytes ctr)

/-- `NextKeystreamBlock`: the triple after one advance (42 R190). -/
def nextKeystreamBlock (t : Triple) : Triple where
  key := t.key
  ctr := t.ctr + 1
  block := encrypt (keySchedule t.key) (advancePlaintext (t.ctr + 1) t.block)

end Sys2Proof.Machine
end

