-- ==== Sys2Proof/Machine/Ops.lean ====
section
/-! DEFINITION. The operations the meanings share: entering the fatal state and leaving it by reset
(spec/60_exceptions.md R233, R235; spec/70_reset_and_hazards.md R260), starting a command (R234, R236), the durable
store and the entropy port (spec/20_memory.md R66, R67; spec/42_generator_commands.md R185), the outside agent (70
R262) and the next item of a host program (spec/10_state.md R27). -/

namespace Sys2Proof.Machine

/-! ### Faults and reset -/

/-- `raise Fatal(c)`: the fatal bit and the cause, and no other change (60 R233). -/
def raiseFatal (c : Cause) (s : State) : State :=
  { s with fatal := true, cause := causeCode c }

/-- The RESET event: every piece of engine state takes its value of 10 R40; `store` is not changed, nor is anything
outside the engine (70 R260). It is the only return from the fatal state (60 R235). -/
def resetEngine (s : State) : State :=
  { State.reset with
    store := s.store
    program := s.program
    pos := s.pos
    returned := s.returned
    draws := s.draws
    entropyIn := s.entropyIn
    outcomesIn := s.outcomesIn
    params := s.params }

/-- A write to CMD: without effect in the fatal state, else the command runs to its end (20 R62; 41 R160; 60 R234,
R236). -/
def startCommand (body : State → Result) (s : State) : Result :=
  if s.fatal then .next s else body s

/-- A next state is handed on; a stop stays a stop. -/
def andThen (r : Result) (f : State → Result) : Result :=
  match r with
  | .next s => f s
  | .fault e => .fault e
  | .refused e => .refused e

/-! ### The entropy port and the durable store -/

/-- `EntropyDraw(n)`: `n` bytes of the port's answer, lined up ones first and then free ones, and the next value of
`seq` (42 R185; log entry 4). -/
def entropyDraw (n : Nat) (s : State) : Vector Byte n × State :=
  (Vector.ofFn fun i => (s.entropyIn[i.val]?).getD (Config.entropyByte s.draws n s.seq i.val),
   { s with seq := s.seq + 1, draws := s.draws + 1, entropyIn := s.entropyIn.drop n })

/-- `StoreRead()` (20 R66). -/
def storeRead (s : State) : Option (List Byte) := s.store

/-- The draw of the next StoreWrite: the outcome lined up first, or a free one (20 R67; log entry 5). -/
def nextOutcome (s : State) : WriteOutcome :=
  (s.outcomesIn[0]?).getD (Config.writeOutcome s.draws)

/-- What the store holds after a StoreWrite of `rec` with outcome `w` (20 R67). -/
def storeAfter (p : Params) (rec : List Byte) (old : Option (List Byte)) : WriteOutcome → Option (List Byte)
  | .ok => some rec
  | .failKept => old
  | .failLost => if p.persistFailCorrupts then none else old

/-- `StoreWrite(rec)`: whether it returned ok, and the state after it (20 R67). -/
def storeWrite (rec : List Byte) (s : State) : Bool × State :=
  (nextOutcome s == .ok,
   { s with
     store := storeAfter s.params rec s.store (nextOutcome s)
     draws := s.draws + 1
     outcomesIn := s.outcomesIn.drop 1 })

/-- Another agent replaces the content of the store: possible from a reset to the next generator initialisation (70
R262), outside the model after it (70 R272, 93 U9; log entry 9). -/
def outsideStore (content : Option (List Byte)) (s : State) : Result :=
  if s.gstate = .uninitialized then .next { s with store := content } else .refused .foreignStoreWrite

/-! ### The host program -/

/-- The item at the index of the host program, if the run has not ended (10 R27, 70 R266). -/
def nextItem (s : State) : Option Item := s.program[s.pos]?

/-- The index is increased by exactly 1 by every item (10 R27). -/
def advancePos (s : State) : State := { s with pos := s.pos + 1 }

/-- `s` with the BUS16 word `w` as the item at its index; an index past the end of the program is reached through
RESET items that no run performs. -/
def placeWord (s : State) (w : BusWord) : State :=
  { s with
    program := s.program.take s.pos ++ List.replicate (s.pos - s.program.length) .reset ++ [.word w]
      ++ s.program.drop (s.pos + 1) }

end Sys2Proof.Machine
end

