-- ==== Sys2Proof/Machine/CipherCommands.lean ====
section
/-! DEFINITION. The cipher commands SETKEY, ENC and DEC on context U (spec/41_cipher_commands.md R160 to R165). None
touches the generator, context G, BYTEOUT, `seq` or the store (R160). -/

namespace Sys2Proof.Machine

/-- The context one setKey leaves behind: `ek = KeySchedule(k)`, `dk[r] = ek[14 - r]` (10 R30). -/
def contextOf (k : Key) : Context where
  ek := keySchedule k
  dk := inverseSchedule (keySchedule k)

/-- The pseudocode of SETKEY (41 R161). -/
def setKeyCommand (s : State) : Result :=
  if s.keyComplete then
    .next { s with
      ctxU := some (contextOf s.keyin)
      keyin := Vector.replicate 32 0x00#8
      keyinMask := 0#32 }
  else .next (raiseFatal .keySize s)

/-- The pseudocode ENC and DEC share: `raise Fatal(NotKeyed)` if keyedU = 0, else DOUT takes the cipher's answer on
DIN (41 R163, R164). -/
def blockCommand (f : Context → Block → Block) (s : State) : Result :=
  match s.ctxU with
  | none => .next (raiseFatal .notKeyed s)
  | some c => .next { s with dout := f c s.din }

/-- The pseudocode of ENC (41 R163). -/
def encCommand (s : State) : Result := blockCommand (fun c p => encrypt c.ek p) s

/-- The pseudocode of DEC (41 R164). -/
def decCommand (s : State) : Result := blockCommand (fun c p => decrypt c.dk p) s

/-- SETKEY (41 R161). -/
def execSetkey (s : State) : Result := startCommand setKeyCommand s

/-- ENC (41 R163). -/
def execEnc (s : State) : Result := startCommand encCommand s

/-- DEC (41 R164). -/
def execDec (s : State) : Result := startCommand decCommand s

end Sys2Proof.Machine
end

