-- ==== Sys2Proof/Machine/GeneratorCommands.lean ====
section
/-! DEFINITION. The generator commands GINIT, ADVANCE and NEXTBYTE and the procedures they share
(spec/42_generator_commands.md R180 to R193). None touches context U, KEYIN, DIN or DOUT. -/

namespace Sys2Proof.Machine

/-! ### Shared procedures -/

/-- `LoadState()`: `none` is its answer `invalid` (42 R182). -/
def loadState (s : State) : Option Triple := parseRecord s.params (storeRead s)

/-- `Synthesize()`: three draws, in the order of the record's fields (42 R184). -/
def synthesize (s : State) : Triple × State :=
  let (k, s1) := entropyDraw 32 s
  let (c, s2) := entropyDraw 16 s1
  let (b, s3) := entropyDraw 16 s2
  ({ key := k, ctr := ctrFromBytes c, block := b }, s3)

/-- `Persist()`: the result of the write is ignored (42 R188). -/
def persist (t : Triple) (s : State) : State := (storeWrite (serializeRecord t) s).2

/-- The two assignments of either branch of `GeneratorInit`: the three fields, and the state they came by (42
R187). -/
def adopt (t : Triple) (g : GState) (s : State) : State := { s with triple := some t, gstate := g }

/-- The end of `GeneratorInit`: context G is keyed with CipherKey, the cursor is 16, the generator is Ready (42
R187). -/
def finishInit (t : Triple) (s : State) : State :=
  { s with ctxG := some (contextOf t.key), cursor := some 16, gstate := .ready }

/-- `GeneratorInit()`, called only when Uninitialized (42 R187). -/
def generatorInit (s : State) : State :=
  match loadState s with
  | some t => finishInit t (adopt t .loaded s)
  | none =>
    let (t, s1) := synthesize s
    finishInit t (persist t (adopt t .freshlySynthesized s1))

/-- Lazy initialisation, with which each generator command begins (42 R180). -/
def lazyInit (s : State) : State := if s.gstate = .uninitialized then generatorInit s else s

/-- `AdvanceBlock()` (42 R189): the incremented counter xor-ed into the previous block, encrypted under `ekG`, the
record persisted, the cursor 0. A counter, block or round key without a value stops it (93 U15; log entry 3). -/
def advanceBlock (s : State) : Result :=
  match s.triple, s.ctxG with
  | some t, some g =>
    let ctr := t.ctr + 1
    let t' : Triple := { t with ctr := ctr, block := encrypt g.ek (advancePlaintext ctr t.block) }
    .next { persist t' { s with triple := some t' } with cursor := some 0 }
  | _, _ => .fault .noValue

/-- `BYTEOUT <- block[cursor]; cursor <- cursor + 1`, for a cursor below 16 (42 R193). A cursor or block without a
value stops it, and a cursor of 16 points at no byte (93 U15; log entry 3). -/
def emitByte (s : State) : Result :=
  match s.triple, s.cursor with
  | some t, some c =>
    if h : c.val < 16 then
      .next { s with byteout := t.block[c.val], cursor := some ⟨c.val + 1, by omega⟩ }
    else .fault .noValue
  | _, _ => .fault .noValue

/-! ### Commands -/

/-- The pseudocode of GINIT (42 R191). -/
def ginitCommand (s : State) : Result := .next (lazyInit s)

/-- The pseudocode of ADVANCE (42 R192). -/
def advanceCommand (s : State) : Result := advanceBlock (lazyInit s)

/-- The pseudocode of NEXTBYTE (42 R193). -/
def nextbyteCommand (s : State) : Result :=
  let s1 := lazyInit s
  if s1.cursor = some 16 then andThen (advanceBlock s1) emitByte else emitByte s1

/-- GINIT (42 R191). -/
def execGinit (s : State) : Result := startCommand ginitCommand s

/-- ADVANCE (42 R192). -/
def execAdvance (s : State) : Result := startCommand advanceCommand s

/-- NEXTBYTE (42 R193). -/
def execNextbyte (s : State) : Result := startCommand nextbyteCommand s

end Sys2Proof.Machine
end

