-- ==== Sys2Proof/Machine/Bus.lean ====
section
/-! DEFINITION. The host's reads and writes: RD and its two named cases ISINIT and RDBYTE, WR, and the write to CMD
of a byte that is no command code (spec/20_memory.md R61, R62; spec/30_encoding.md R96; spec/41_cipher_commands.md
R162; spec/10_state.md R25). -/

namespace Sys2Proof.Machine

/-- A host read of address `a`: the byte is returned and no engine state changes, in the fatal state as well (20
R61, 60 R234). -/
def hostRead (a : HostAddr) (s : State) : Result := .next (respond (hostReadByte s a) s)

/-- `raise Fatal(IllegalCommand)` and nothing else (30 R96). -/
def illegalCommand (s : State) : Result := .next (raiseFatal .illegalCommand s)

/-- The command with code `v` (30 R93, R96). -/
def commandWithCode (v : Byte) (s : State) : Result :=
  if v = 0x01#8 then setKeyCommand s
  else if v = 0x02#8 then encCommand s
  else if v = 0x03#8 then decCommand s
  else if v = 0x10#8 then ginitCommand s
  else if v = 0x11#8 then advanceCommand s
  else if v = 0x12#8 then nextbyteCommand s
  else illegalCommand s

/-- `MemWrite(a, 1, v)` (20 R62). -/
def hostWrite (a : HostAddr) (v : Byte) (s : State) : Result :=
  if s.fatal then .next s
  else if a = 0x40#7 then commandWithCode v s
  else .next (writeRegister a v s)

/-- ILLEGAL (30 R96). -/
def execIllegal (s : State) : Result := startCommand illegalCommand s

/-- ISINIT: a read of STATUS, whose bit 0 is the answer (41 R162). -/
def execIsinit (s : State) : Result := hostRead 0x41#7 s

/-- RDBYTE: a read of BYTEOUT (10 R25). -/
def execRdbyte (s : State) : Result := hostRead 0x42#7 s

/-- RD (20 R61). -/
def execRd (a : HostAddr) (s : State) : Result := hostRead a s

/-- WR (20 R62). -/
def execWr (a : HostAddr) (d : Byte) (s : State) : Result := hostWrite a d s

end Sys2Proof.Machine
end

