-- ==== Sys2Proof/Machine/Dispatch.lean ====
section
/-! DEFINITION. One arm per instruction. -/

namespace Sys2Proof.Machine

def exec (i : Instr) (s : State) : Host.Outcome State Fault Refusal :=
  match i with
  | .setkey => Sys2Proof.Machine.execSetkey s
  | .enc => Sys2Proof.Machine.execEnc s
  | .dec => Sys2Proof.Machine.execDec s
  | .ginit => Sys2Proof.Machine.execGinit s
  | .advance => Sys2Proof.Machine.execAdvance s
  | .nextbyte => Sys2Proof.Machine.execNextbyte s
  | .illegal _ => Sys2Proof.Machine.execIllegal s
  | .isinit _ => Sys2Proof.Machine.execIsinit s
  | .rdbyte _ => Sys2Proof.Machine.execRdbyte s
  | .rd a _ => Sys2Proof.Machine.execRd a s
  | .wr a d => Sys2Proof.Machine.execWr a d s

end Sys2Proof.Machine
end

