-- ==== Sys2Proof/Machine/Step.lean ====
section
/-! DEFINITION. One step: the next item of the host program, and the place where a word is put to be that item
(spec/10_state.md R27; spec/30_encoding.md R91; spec/70_reset_and_hazards.md R260, R266). -/

namespace Sys2Proof.Machine

/-- One item: a BUS16 word is decoded and executed, RESET is the reset event, and the outside agent's move changes
the store (30 R91, 70 R260, R262). -/
def performItem (it : Item) (s : State) : Host.Outcome State Fault Refusal :=
  match it with
  | .word w => exec (decodeWord w) s
  | .reset => .next (resetEngine s)
  | .outsideStore content => outsideStore content s

/-- One step: the next item is performed and the index grows by 1. When every item has been performed the engine
waits and nothing changes (10 R27, 70 R260, R266; log entry 7). -/
def step (s : State) : Host.Outcome State Fault Refusal :=
  match nextItem s with
  | none => .next s
  | some it => andThen (performItem it s) (fun t => .next (advancePos t))

/-- `s` with the instruction whose opcode-table bits are `w` as the item that `step` performs next. -/
def State.withFetchWord (s : State) (nbits w : Nat) : State :=
  placeWord s (BitVec.ofNat 16 (w % 2 ^ nbits))

end Sys2Proof.Machine
end

