-- ==== Sys2Proof/Safety.lean ====
section
/-! DEFINITION. What claims use: the invariant at a command boundary (spec/10_state.md R41), the end of a run and a
good run (spec/70_reset_and_hazards.md R266), and the store in agreement with the engine
(spec/42_generator_commands.md R197). -/

namespace Sys2Proof

/-- The reads of the host (20 R61). -/
def Instr.isRead : Instr → Bool
  | .isinit _ | .rdbyte _ | .rd _ _ => true
  | .setkey | .enc | .dec | .ginit | .advance | .nextbyte | .illegal _ | .wr _ _ => false

/-- The three generator commands (42 R180). -/
def Instr.isGenerator : Instr → Bool
  | .ginit | .advance | .nextbyte => true
  | .setkey | .enc | .dec | .illegal _ | .isinit _ | .rdbyte _ | .rd _ _ | .wr _ _ => false

end Sys2Proof

namespace Sys2Proof.Machine

/-- The generator as reset leaves it: no field holds a value and no draw has been made (10 R32 to R37, R40). -/
def State.Unstarted (s : State) : Prop :=
  s.gstate = .uninitialized ∧ s.ctxG = none ∧ s.triple = none ∧ s.cursor = none ∧ s.seq = 0#64

/-- A Ready generator whose fields are `t` and `c`, with context G keyed with CipherKey (10 R41 (b), (c)). -/
def State.ReadyWith (s : State) (t : Triple) (c : Fin 17) : Prop :=
  s.gstate = .ready ∧ s.triple = some t ∧ s.cursor = some c ∧ s.ctxG = some (contextOf t.key)

/-- The invariant at a command boundary (10 R41), with what R30 says of context U and R37 of `seq`. -/
structure State.Inv (s : State) : Prop where
  /-- (a), (b), (c): the generator is as reset leaves it, or Ready and keyed with CipherKey; `seq` never exceeds
  3 (10 R37). -/
  generator : s.Unstarted ∨ ∃ t c, s.ReadyWith t c ∧ s.seq ≤ 3#64
  /-- Context U is what some setKey leaves behind (10 R30). -/
  contextU : ∀ g, s.ctxU = some g → ∃ k, g = contextOf k
  /-- (e). -/
  cause : s.cause = 0#4 ↔ s.fatal = false
  /-- Cause codes 4 to 15 are never produced (60 R231). -/
  causeCodes : s.cause ≤ 3#4

/-- The values that every piece of engine state has after reset (10 R40). -/
structure State.AsReset (s : State) : Prop where
  keyin : s.keyin = Vector.replicate 32 0x00#8
  keyinMask : s.keyinMask = 0#32
  din : s.din = Vector.replicate 16 0x00#8
  dout : s.dout = Vector.replicate 16 0x00#8
  byteout : s.byteout = 0x00#8
  contextU : s.ctxU = none
  contextG : s.ctxG = none
  gstate : s.gstate = .uninitialized
  noTriple : s.triple = none
  noCursor : s.cursor = none
  seq : s.seq = 0#64
  fatal : s.fatal = false
  cause : s.cause = 0#4

/-- Every item of the host program has been performed (10 R27, 70 R266). -/
def State.runEnded (s : State) : Bool := s.program.length == s.pos

/-- A good run, asked at its end (70 R266). -/
def State.goodRun (s : State) : Bool := s.runEnded && !s.fatal

/-- While Ready, the store holds the record of the engine's triple (42 R197). -/
def State.InSync (s : State) : Prop :=
  s.gstate = .ready → ∃ t, s.triple = some t ∧ s.store = some (serializeRecord t)

/-- The instruction runs AdvanceBlock from `s`: ADVANCE always, NEXTBYTE where its lazy initialisation leaves the cursor
at 16 (42 R192, R193). -/
def State.advances (s : State) : Instr → Bool
  | .advance => true
  | .nextbyte => (lazyInit s).cursor == some 16
  | .setkey | .enc | .dec | .ginit | .illegal _ | .isinit _ | .rdbyte _ | .rd _ _ | .wr _ _ => false

/-- The outcomes of the StoreWrites that the instruction makes from `s`, in order: the one of a fresh synthesis (42
R187), drawn after the three entropy draws, and the one of an advance (42 R189). -/
def State.writeOutcomes (s : State) (i : Instr) : List WriteOutcome :=
  if i.isGenerator && !s.fatal then
    (if s.gstate = .uninitialized ∧ loadState s = none then [nextOutcome (synthesize s).2] else [])
      ++ (if s.advances i then [nextOutcome (lazyInit s)] else [])
  else []

/-- Two states that agree on all the host can read or has put in, and on context U: what they may differ in is the
generator, its context, the store and the inputs (10 R28, R31; 60 R239). -/
structure State.SameHostView (s s' : State) : Prop where
  keyin : s.keyin = s'.keyin
  keyinMask : s.keyinMask = s'.keyinMask
  din : s.din = s'.din
  dout : s.dout = s'.dout
  byteout : s.byteout = s'.byteout
  ctxU : s.ctxU = s'.ctxU
  fatal : s.fatal = s'.fatal
  cause : s.cause = s'.cause
  returned : s.returned = s'.returned

/-- Instructions executed one after the other, up to the first that stops. -/
def execAll : List Instr → State → Result
  | [], s => .next s
  | i :: is, s => andThen (exec i s) (execAll is)

end Sys2Proof.Machine
end

