-- ==== Sys2Proof/Certificates/Slice0/Obligations.lean ====
section
/-! DEFINITION. The statements about PMKE, each from a numbered rule of spec/ (OBLIGATIONS.json gives the rule and the
sentence). In a statement `s` is the state before and `t` or `u` the state after. -/

open Sys2Proof Sys2Proof.Machine

/-! ### Encoding -/

/-- Encoding a well-formed instruction and decoding the word gives it back (30 R91, R93, R94). That a read's ignored
`d` field comes back too is the model's choice, log entry 8. -/
def Obligations.DecodeOfEncode : Prop :=
  ∀ i : Instr, i.wellFormed = true → decodeWord (encode i) = i

/-- Every 16-bit word is the word of one well-formed term of Instr, the one it decodes to, and of no other (30 R91,
R94: "The decode is total"). That the word is got back rests on the model's choice to keep the ignored `d` field of a
read in the term, log entry 8: to the spec the words 0x4100 and 0x41AB are the same read. -/
def Obligations.EveryWordIsOneInstruction : Prop :=
  ∀ w : BusWord, (decodeWord w).wellFormed = true ∧ encode (decodeWord w) = w ∧
    ∀ i : Instr, i.wellFormed = true → encode i = w → i = decodeWord w

/-- The decode of 30 R94 on the assembled words `(a << 8) or d` and `0x8000 or (a << 8) or d`. Where R94 says RD, the
reads of STATUS and BYTEOUT are the rows ISINIT and RDBYTE of the opcode table (30 R99; log entry 12), and a read
carries its ignored `d` field (the model's choice, log entry 8). -/
def Obligations.DecodeFollowsTheTable : Prop :=
  ∀ (a : HostAddr) (d : Byte),
    let read : BusWord := (a.setWidth 16 <<< 8) ||| d.setWidth 16
    let write : BusWord := 0x8000#16 ||| read
    decodeWord read
      = (if a = 0x41#7 then .isinit d else if a = 0x42#7 then .rdbyte d else .rd a d) ∧
    (a ≠ 0x40#7 → decodeWord write = .wr a d) ∧
    (a = 0x40#7 → decodeWord write =
      if d = 0x01#8 then .setkey else if d = 0x02#8 then .enc else if d = 0x03#8 then .dec
      else if d = 0x10#8 then .ginit else if d = 0x11#8 then .advance else if d = 0x12#8 then .nextbyte
      else .illegal d)

/-- Words written out from 30 R93, R94 and R98 decode to what they stand for. -/
def Obligations.WrittenOutWordsDecode : Prop :=
  [0xC001#16, 0xC002#16, 0xC003#16, 0xC010#16, 0xC011#16, 0xC012#16, 0xC000#16, 0xC013#16, 0x4100#16, 0x4200#16,
    0x4001#16, 0x7FFF#16, 0x9F1F#16, 0xC101#16].map decodeWord
  = [.setkey, .enc, .dec, .ginit, .advance, .nextbyte, .illegal 0x00#8, .illegal 0x13#8, .isinit 0x00#8,
      .rdbyte 0x00#8, .rd 0x40#7 0x01#8, .rd 0x7F#7 0xFF#8, .wr 0x1F#7 0x1F#8, .wr 0x41#7 0x01#8]

/-- From bytes, high byte first, the decoder reads one word and hands on the rest; less than a word is rejected by
name (30 R91). -/
def Obligations.DecodeReadsTheHighByteFirst : Prop :=
  (∀ (i : Instr) (rest : List Byte), i.wellFormed = true →
    decode ((encode i).extractLsb' 8 8 :: (encode i).extractLsb' 0 8 :: rest) = .ok (i, rest)) ∧
  decode [] = .error .noWord ∧ ∀ b : Byte, decode [b] = .error .halfWord

/-! ### The step -/

/-- When the next item is the word of a well-formed instruction, the step is exec of that instruction and the index
moves on by one (10 R27, 30 R91). -/
def Obligations.StepRunsTheDecodedInstruction : Prop :=
  ∀ (s : State) (i : Instr), i.wellFormed = true → s.program[s.pos]? = some (.word (encode i)) →
    step s = match exec i s with
      | .next t => .next { t with pos := t.pos + 1 }
      | .fault e => .fault e
      | .refused e => .refused e

/-- No instruction writes the host program or its index; every step with an item left moves the index on by exactly
one; with none left the engine waits (10 R27; the waiting is the model's choice, log entry 7). -/
def Obligations.ThePositionCountsItems : Prop :=
  State.reset.pos = 0 ∧
  (∀ (i : Instr) (s t : State), exec i s = .next t → t.pos = s.pos ∧ t.program = s.program) ∧
  (∀ s u : State, s.pos < s.program.length → step s = .next u →
    u.pos = s.pos + 1 ∧ u.program = s.program) ∧
  (∀ s : State, s.program.length ≤ s.pos → step s = .next s)

/-- The open parameters are no state: no step changes them (10 R43). -/
def Obligations.StepKeepsTheParameters : Prop :=
  ∀ s u : State, step s = .next u → u.params = s.params

/-! ### Reset and the invariant -/

/-- After the RESET event, and in `State.reset`, every piece of engine state has its value of 10 R40, and the event
leaves the store as it was. That it leaves the program, the results and the inputs as they were too is the model's
inference, log entry 7, and that it does not clear `draws` the model's choice, log entry 4. -/
def Obligations.ResetLeavesTheStatedValues : Prop :=
  State.reset.AsReset ∧
  ∀ s : State, s.program[s.pos]? = some .reset → ∃ t, step s = .next t ∧ t.AsReset ∧
    t.store = s.store ∧ t.pos = s.pos + 1 ∧ t.program = s.program ∧ t.returned = s.returned ∧
    t.draws = s.draws ∧ t.entropyIn = s.entropyIn ∧ t.outcomesIn = s.outcomesIn ∧ t.params = s.params

/-- The invariant of 10 R41 holds after reset. -/
def Obligations.InvariantAfterReset : Prop :=
  State.reset.Inv ∧ ∀ s : State, s.AsReset → s.Inv

/-- Every step keeps the invariant of 10 R41. -/
def Obligations.StepKeepsTheInvariant : Prop :=
  ∀ s u : State, s.Inv → step s = .next u → u.Inv

/-- At a command boundary no instruction stops the model (10 R41; 60 R231, R233). -/
def Obligations.NoInstructionStopsAtABoundary : Prop :=
  ∀ (s : State) (i : Instr), s.Inv → ∃ t, exec i s = .next t

/-- When an instruction stops (93 U15; log entry 3): a running ADVANCE or NEXTBYTE of a generator that is not
Uninitialized, exactly when a value it would read is none; and no well-formed instruction in any other case. -/
def Obligations.NoValueIsNeverRead : Prop :=
  (∀ s : State, s.fatal = false → s.gstate ≠ .uninitialized →
    (exec .advance s = .fault .noValue ↔ s.triple = none ∨ s.ctxG = none) ∧
    (exec .nextbyte s = .fault .noValue ↔
      s.triple = none ∨ s.cursor = none ∨ (s.cursor = some 16 ∧ s.ctxG = none))) ∧
  ∀ (s : State) (i : Instr), i.wellFormed = true → (∃ t, exec i s = .next t) ∨
    (exec i s = .fault .noValue ∧ s.fatal = false ∧ s.gstate ≠ .uninitialized ∧ (i = .advance ∨ i = .nextbyte))

/-- Another agent's change of the store happens while Uninitialized and changes nothing else, and is outside the
model otherwise (70 R262, R272; log entry 9). -/
def Obligations.OutsideAgentOnlyBeforeInitialisation : Prop :=
  ∀ (s : State) (c : Option (List Byte)), s.program[s.pos]? = some (.outsideStore c) →
    (s.gstate = .uninitialized → step s = .next { s with store := c, pos := s.pos + 1 }) ∧
    (s.gstate ≠ .uninitialized → step s = .refused .foreignStoreWrite)

/-! ### Host reads and writes -/

/-- The table of 20 R61: what a read of each address returns, in every state, and that it changes nothing but the
list of results; the three read instructions are one. -/
def Obligations.HostReadTable : Prop :=
  ∀ (s : State) (d : Byte),
    let answers (i : Instr) (b : Byte) : Prop := exec i s = .next { s with returned := s.returned ++ [b] }
    (∀ n : Fin 32, answers (.rd (BitVec.ofNat 7 n) d) 0x00#8) ∧
    (∀ n : Fin 16, answers (.rd (BitVec.ofNat 7 (0x20 + n)) d) s.din[n]) ∧
    (∀ n : Fin 16, answers (.rd (BitVec.ofNat 7 (0x30 + n)) d) s.dout[n]) ∧
    answers (.rd 0x40#7 d) 0x00#8 ∧
    answers (.rd 0x41#7 d) ((s.cause.setWidth 8 <<< 4) ||| ((BitVec.ofBool s.fatal).setWidth 8 <<< 1)
      ||| (BitVec.ofBool s.keyedU).setWidth 8) ∧
    answers (.rd 0x42#7 d) s.byteout ∧
    (∀ n : Fin 61, answers (.rd (BitVec.ofNat 7 (0x43 + n)) d) 0x00#8) ∧
    exec (.isinit d) s = exec (.rd 0x41#7 0x00#8) s ∧
    exec (.rdbyte d) s = exec (.rd 0x42#7 0x00#8) s

/-- STATUS, which ISINIT returns (10 R28): KEYED in bit 0, FATAL in bit 1, bits 3:2 zero, CAUSE in bits 7:4, in the
fatal state too; a write to it has no effect; and no field of any register depends on the generator's states, cursor,
counter, key or block. -/
def Obligations.StatusFields : Prop :=
  (∀ (s : State) (d : Byte), ∃ b : Byte, exec (.isinit d) s = .next { s with returned := s.returned ++ [b] } ∧
    b.getLsbD 0 = s.keyedU ∧ b.getLsbD 1 = s.fatal ∧ b.extractLsb' 2 2 = 0#2 ∧ b.extractLsb' 4 4 = s.cause) ∧
  (∀ (s : State) (v : Byte), exec (.wr 0x41#7 v) s = .next s) ∧
  ∀ (s : State) (a : HostAddr) (g : GState) (t : Option Triple) (c : Option (Fin 17)) (x : Option Context),
    hostReadByte { s with gstate := g, triple := t, cursor := c, ctxG := x } a = hostReadByte s a

/-- RDBYTE returns BYTEOUT, twice the same, and draws nothing from the keystream; a write to BYTEOUT has no effect,
and it holds its byte under everything but NEXTBYTE (10 R25). -/
def Obligations.RdbyteReturnsByteout : Prop :=
  ∀ (s : State) (d d' v : Byte),
    exec (.rdbyte d) s = .next { s with returned := s.returned ++ [s.byteout] } ∧
    execAll [.rdbyte d, .rdbyte d'] s = .next { s with returned := s.returned ++ [s.byteout, s.byteout] } ∧
    exec (.wr 0x42#7 v) s = .next s ∧
    ∀ (i : Instr) (t : State), i.wellFormed = true → i ≠ .nextbyte → exec i s = .next t → t.byteout = s.byteout

/-- The rules of 20 R62 for a host write: KEYIN with its mask bit, DIN, the command at CMD, and no effect elsewhere
or in the fatal state. -/
def Obligations.HostWriteTable : Prop :=
  ∀ (s : State) (v : Byte),
    (s.fatal = true → ∀ a : HostAddr, exec (.wr a v) s = .next s) ∧
    (s.fatal = false →
      (∀ n : Fin 32, ∃ t, exec (.wr (BitVec.ofNat 7 n) v) s = .next t ∧
        (∀ j : Fin 32, t.keyin[j] = if j = n then v else s.keyin[j]) ∧
        (∀ j : Fin 32, t.keyinMask.getLsbD j = (decide (j = n) || s.keyinMask.getLsbD j)) ∧
        t = { s with keyin := t.keyin, keyinMask := t.keyinMask }) ∧
      (∀ n : Fin 16, ∃ t, exec (.wr (BitVec.ofNat 7 (0x20 + n)) v) s = .next t ∧
        (∀ j : Fin 16, t.din[j] = if j = n then v else s.din[j]) ∧ t = { s with din := t.din }) ∧
      exec (.wr 0x40#7 v) s = exec (decodeCommand v) s ∧
      ∀ a : HostAddr, 0x30 ≤ a.toNat → a ≠ 0x40#7 → exec (.wr a v) s = .next s)

/-! ### The cipher -/

/-- SBox is the affine map of the inverse of 40 R125, where GInv gives the inverse of 40 R124, and InvSBox is the
inverse permutation. -/
def Obligations.SBoxIsTheAffineInverse : Prop :=
  ∀ a : Byte,
    (a ≠ 0x00#8 → gMul a (gInv a) = 0x01#8) ∧ gInv 0x00#8 = 0x00#8 ∧
    sBox a = gInv a ^^^ (gInv a).rotateLeft 1 ^^^ (gInv a).rotateLeft 2 ^^^ (gInv a).rotateLeft 3
      ^^^ (gInv a).rotateLeft 4 ^^^ 0x63#8 ∧
    invSBox (sBox a) = a ∧ sBox (invSBox a) = a

/-- GMul is the product of the field (40 R121 to R123, R130): it distributes over xor, has unit 1, and a factor x
taken out of the first operand is XTime of the product, which fixes it at every pair of bytes; and it is commutative
and associative. -/
def Obligations.GMulIsTheFieldProduct : Prop :=
  ∀ a b c : Byte, gMul a (b ^^^ c) = gMul a b ^^^ gMul a c ∧ gMul (a ^^^ b) c = gMul a c ^^^ gMul b c ∧
    gMul (xTime a) b = xTime (gMul a b) ∧ gMul 0x01#8 a = a ∧
    gMul a b = gMul b a ∧ gMul (gMul a b) c = gMul a (gMul b c) ∧
    gMul a 0x01#8 = a ∧ gMul a 0x00#8 = 0x00#8 ∧ gMul 0x02#8 a = xTime a ∧ gMul 0x03#8 a = xTime a ^^^ a

/-- Each inverse round transformation undoes its round transformation (40 R125, R129, R131, R132). -/
def Obligations.InverseTransformationsUndo : Prop :=
  ∀ s rk : Block, invSubBytes (subBytes s) = s ∧ invShiftRows (shiftRows s) = s ∧
    invMixColumns (mixColumns s) = s ∧ addRoundKey (addRoundKey s rk) rk = s

/-- The 60 words of the key schedule satisfy the recurrence of 40 R136. -/
def Obligations.KeyScheduleRecurrence : Prop :=
  ∀ k : Key, (expandKey k).length = 60 ∧
    ∀ i : Nat, ∀ hi : i < 60,
      let w (j : Nat) : KeyWord := scheduleWord (expandKey k) j
      w i =
        if h : i < 8 then #v[k[4 * i], k[4 * i + 1], k[4 * i + 2], k[4 * i + 3]]
        else xorBytes (w (i - 8))
          (if i % 8 = 0 then xorBytes (subWord (rotWord (w (i - 1)))) (rcon (i / 8))
           else if i % 8 = 4 then subWord (w (i - 1)) else w (i - 1))

/-- The forward schedule (40 R137): round key `r` is words 4r to 4r + 3, so the first two round keys are the key
itself; and the inverse schedule is the forward one read backwards (R138). -/
def Obligations.KeyScheduleLayout : Prop :=
  ∀ k : Key,
    (∀ (r : Fin 15) (j : Fin 16),
      (keySchedule k)[r][j] = (scheduleWord (expandKey k) (4 * r.val + j.val / 4))[j.val % 4]) ∧
    (∀ j : Fin 16, (keySchedule k)[0][j] = k[j.val] ∧ (keySchedule k)[1][j] = k[16 + j.val]) ∧
    ∀ r : Fin 15, (inverseSchedule (keySchedule k))[r] = (keySchedule k)[14 - r.val]

/-- The rounds (40 R139, R140): Encrypt and Decrypt are the spec's loops, each cipher state given by the one before
it and the round key of its number. -/
def Obligations.RoundsOfTheCipher : Prop :=
  ∀ (rks : RoundKeys) (b : Block),
    (∃ x : Fin 14 → Block, x 0 = addRoundKey b rks[0] ∧
      (∀ r : Fin 13, x r.succ = addRoundKey (mixColumns (shiftRows (subBytes (x r.castSucc)))) rks[r.val + 1]) ∧
      encrypt rks b = addRoundKey (shiftRows (subBytes (x 13))) rks[14]) ∧
    ∃ y : Fin 14 → Block, y 0 = addRoundKey b rks[0] ∧
      (∀ r : Fin 13, y r.succ
        = invMixColumns (addRoundKey (invSubBytes (invShiftRows (y r.castSucc))) rks[r.val + 1])) ∧
      decrypt rks b = addRoundKey (invSubBytes (invShiftRows (y 13))) rks[14]

/-- The example of 40 R137, R139 and R140 (FK1): key 000102...1f. -/
def Obligations.PublishedExample : Prop :=
  let k : Key := bytesOfNat 32 0x000102030405060708090a0b0c0d0e0f101112131415161718191a1b1c1d1e1f
  let p : Block := bytesOfNat 16 0x00112233445566778899aabbccddeeff
  let c : Block := bytesOfNat 16 0x8ea2b7ca516745bfeafc49904b496089
  (keySchedule k)[2] = bytesOfNat 16 0xa573c29fa176c498a97fce93a572c09c ∧
  (keySchedule k)[14] = bytesOfNat 16 0x24fc79ccbf0979e9371ac23c6d68de36 ∧
  encrypt (keySchedule k) p = c ∧ decrypt (inverseSchedule (keySchedule k)) c = p

/-- The round trip of 40 R141, for every key and every block, in both orders ("derived: from rules R127 to R140"). -/
def Obligations.CipherRoundTrip : Prop :=
  ∀ (k : Key) (p : Block),
    decrypt (inverseSchedule (keySchedule k)) (encrypt (keySchedule k) p) = p ∧
    encrypt (keySchedule k) (decrypt (inverseSchedule (keySchedule k)) p) = p

/-! ### Cipher commands -/

/-- SETKEY (41 R161, R165): with a complete key, whatever context U held before, both schedules, KEYIN and its mask
cleared; with an incomplete one Fatal(KeySize). -/
def Obligations.SetkeyKeysContextU : Prop :=
  ∀ s : State, s.fatal = false →
    (s.keyinMask = 0xFFFFFFFF#32 → ∃ g : Context, g.ek = keySchedule s.keyin ∧
      (∀ r : Fin 15, g.dk[r] = g.ek[14 - r.val]) ∧
      exec .setkey s = .next { s with
        ctxU := some g, keyin := Vector.replicate 32 0x00#8, keyinMask := 0#32 }) ∧
    (s.keyinMask ≠ 0xFFFFFFFF#32 → exec .setkey s = .next { s with fatal := true, cause := 2#4 })

/-- ENC (41 R163): DOUT takes the encryption of DIN under context U; without a key Fatal(NotKeyed). -/
def Obligations.EncEncryptsDin : Prop :=
  ∀ s : State, s.fatal = false →
    (∀ g, s.ctxU = some g → exec .enc s = .next { s with dout := encrypt g.ek s.din }) ∧
    (s.keyedU = false → exec .enc s = .next { s with fatal := true, cause := 1#4 })

/-- DEC (41 R164): DOUT takes the decryption of DIN under context U; without a key Fatal(NotKeyed). -/
def Obligations.DecDecryptsDin : Prop :=
  ∀ s : State, s.fatal = false →
    (∀ g, s.ctxU = some g → exec .dec s = .next { s with dout := decrypt g.dk s.din }) ∧
    (s.keyedU = false → exec .dec s = .next { s with fatal := true, cause := 1#4 })

/-- The laws (a) and (b) of 41 R166: ENC, DOUT copied to DIN, DEC gives the block back, and the other way round. -/
def Obligations.EncAndDecUndoEachOther : Prop :=
  ∀ (s : State) (k : Key), s.fatal = false → s.ctxU = some (contextOf k) →
    (∃ t u, exec .enc s = .next t ∧ exec .dec { t with din := t.dout } = .next u ∧ u.dout = s.din) ∧
    (∃ t u, exec .dec s = .next t ∧ exec .enc { t with din := t.dout } = .next u ∧ u.dout = s.din)

/-- The 32 key bytes written in any order, none left out, and then SETKEY key context U with exactly those bytes; a
byte left out since the mask was clear makes SETKEY fatal (20 R71, 30 R99, 41 R161, 70 R274). -/
def Obligations.KeyBytesInAnyOrder : Prop :=
  ∀ (s : State) (k : Key) (order : List (Fin 32)), s.fatal = false →
    let writes : List Instr := order.map fun i => .wr (BitVec.ofNat 7 i.val) k[i]
    ((∀ i : Fin 32, i ∈ order) → execAll (writes ++ [.setkey]) s = .next { s with
      ctxU := some (contextOf k), keyin := Vector.replicate 32 0x00#8, keyinMask := 0#32 }) ∧
    (s.keyinMask = 0#32 → (∃ i : Fin 32, i ∉ order) → ∃ t, execAll (writes ++ [.setkey]) s = .next t ∧
      t.fatal = true ∧ t.cause = 2#4 ∧ t.ctxU = s.ctxU)

/-- A byte that is no command code, written to CMD: Fatal(IllegalCommand) and nothing else (30 R96). -/
def Obligations.UnknownCommandIsFatal : Prop :=
  ∀ op : Byte, op ∉ [0x01#8, 0x02#8, 0x03#8, 0x10#8, 0x11#8, 0x12#8] →
    decodeWord (0xC000#16 ||| op.setWidth 16) = .illegal op ∧
    ∀ s : State, s.fatal = false → exec (.illegal op) s = .next { s with fatal := true, cause := 3#4 }

/-! ### Faults -/

/-- The fault table of 60 R231, whole: which instruction raises which cause and when, that a fault changes nothing
but `fatal` and `cause` (R233), that nothing else raises one, and that no other code is produced. -/
def Obligations.FaultTable : Prop :=
  ∀ (s t : State) (i : Instr), i.wellFormed = true → s.fatal = false → exec i s = .next t →
    let notKeyed : Prop := (i = .enc ∨ i = .dec) ∧ s.keyedU = false
    let keySize : Prop := i = .setkey ∧ s.keyinMask ≠ 0xFFFFFFFF#32
    let illegalCommand : Prop := ∃ op, i = .illegal op
    (notKeyed → t = { s with fatal := true, cause := 1#4 }) ∧
    (keySize → t = { s with fatal := true, cause := 2#4 }) ∧
    (illegalCommand → t = { s with fatal := true, cause := 3#4 }) ∧
    (¬ notKeyed → ¬ keySize → ¬ illegalCommand → t.fatal = false ∧ t.cause = s.cause) ∧
    (s.cause = 0#4 → t.cause ≤ 3#4 ∧ (t.cause = 0#4 ↔ t.fatal = false))

/-- The fatal state (60 R234): every command and every host write has no effect, so the first cause stays, and the
reads work as always (20 R61) and change nothing but the list of results. -/
def Obligations.FatalStateIsFrozen : Prop :=
  ∀ s : State, s.fatal = true →
    (∀ i : Instr, i.isRead = false → exec i s = .next s) ∧
    ∀ (a : HostAddr) (d : Byte),
      exec (.rd a d) s = .next { s with returned := s.returned ++ [hostReadByte s a] } ∧
      exec (.isinit d) s = .next { s with returned := s.returned ++ [statusByte s] } ∧
      exec (.rdbyte d) s = .next { s with returned := s.returned ++ [s.byteout] }

/-- Only RESET leaves the fatal state (60 R235, 70 R260), and no step but the outside agent's changes the store in it
(10 R41 (f)). -/
def Obligations.OnlyResetLeavesTheFatalState : Prop :=
  ∀ s u : State, s.fatal = true → step s = .next u →
    (s.program[s.pos]? = some .reset ∧ u.AsReset ∧ u.store = s.store) ∨
    (u.fatal = true ∧ u.cause = s.cause ∧ u.keyin = s.keyin ∧ u.keyinMask = s.keyinMask ∧ u.din = s.din ∧
      u.dout = s.dout ∧ u.byteout = s.byteout ∧ u.ctxU = s.ctxU ∧ u.ctxG = s.ctxG ∧ u.gstate = s.gstate ∧
      u.triple = s.triple ∧ u.cursor = s.cursor ∧ u.seq = s.seq ∧
      ((∀ c, s.program[s.pos]? ≠ some (.outsideStore c)) → u.store = s.store))

/-! ### Counter and record -/

/-- The counter's conversion (20 R68): byte i is bits 8i+7 to 8i, the bytes sum back to the counter, the two
conversions are inverse, and the counter is its high word times 2^64 plus its low word. -/
def Obligations.CounterConversion : Prop :=
  (∀ (c : Counter) (i : Fin 16), (ctrBytes c)[i] = ctrByte c i.val ∧
    (ctrByte c i.val).toNat = c.toNat / 2 ^ (8 * i.val) % 256) ∧
  (∀ b : Block, (ctrFromBytes b).toNat = ∑ i : Fin 16, b[i].toNat * 2 ^ (8 * i.val)) ∧
  (∀ c : Counter, ctrFromBytes (ctrBytes c) = c) ∧
  (∀ b : Block, ctrBytes (ctrFromBytes b) = b) ∧
  ∀ c : Counter, c.toNat = (ctrHigh c).toNat * 2 ^ 64 + (ctrLow c).toNat

/-- The layout of the durable record (20 R64): 64 bytes, key, low counter word, high counter word, block. -/
def Obligations.RecordLayout : Prop :=
  ∀ t : Triple, (serializeRecord t).length = 64 ∧
    (∀ i : Fin 32, (serializeRecord t)[i.val]? = some t.key[i]) ∧
    (∀ i : Fin 8, (serializeRecord t)[32 + i.val]? = some ((ctrLow t.ctr).extractLsb' (8 * i.val) 8)) ∧
    (∀ i : Fin 8, (serializeRecord t)[40 + i.val]? = some ((ctrHigh t.ctr).extractLsb' (8 * i.val) 8)) ∧
    ∀ i : Fin 16, (serializeRecord t)[48 + i.val]? = some t.block[i]

/-- The record functions (20 R65): SerializeRecord is key, counter bytes, block; ParseRecord undoes it whenever the
record is consistent, every content it accepts is the serialised record of its answer, an absent store or one of
another length is invalid, and by default every record is consistent. The spec marks the round trip as its own
inference ("derived: from rules R64 and R68"). -/
def Obligations.ParseRecordIsAllOrNothing : Prop :=
  (∀ (p : Params) (t : Triple), parseRecord p (some (serializeRecord t))
    = if recordConsistent p t then some t else none) ∧
  (∀ (p : Params) (c : Option (List Byte)) (t : Triple), parseRecord p c = some t →
    c = some (serializeRecord t)) ∧
  (∀ t : Triple, serializeRecord t = t.key.toList ++ (ctrBytes t.ctr).toList ++ t.block.toList) ∧
  (∀ t : Triple, recordConsistent Params.default t = true) ∧
  (∀ p : Params, parseRecord p none = none) ∧
  ∀ (p : Params) (b : List Byte), b.length ≠ 64 → parseRecord p (some b) = none

/-- StoreWrite (20 R67): ok replaces the whole content; a failed write leaves it, or, where PERSIST_FAIL_CORRUPTS
holds and the draw says so, leaves it absent; the engine's own state is untouched. -/
def Obligations.StoreWriteOutcomes : Prop :=
  ∀ (s : State) (rec : List Byte),
    let store (ok : Bool) (c : Option (List Byte)) : Prop :=
      storeWrite rec s = (ok, { s with store := c, draws := s.draws + 1, outcomesIn := s.outcomesIn.drop 1 })
    (nextOutcome s = .ok → store true (some rec)) ∧
    (nextOutcome s = .failKept → store false s.store) ∧
    (nextOutcome s = .failLost → s.params.persistFailCorrupts = true → store false none) ∧
    (nextOutcome s = .failLost → s.params.persistFailCorrupts = false → store false s.store)

/-! ### Generator commands -/

/-- GINIT of an Uninitialized generator with a record in the store (42 R187, R191): the record is adopted whole,
context G keyed, the cursor 16; no draw, no write. -/
def Obligations.GinitAdoptsTheRecord : Prop :=
  ∀ (s : State) (t : Triple), s.fatal = false → s.gstate = .uninitialized →
    parseRecord s.params s.store = some t →
    exec .ginit s = .next { s with
      triple := some t, ctxG := some (contextOf t.key), cursor := some 16, gstate := .ready }

/-- GINIT of an Uninitialized generator without a usable record (42 R183 to R185, R187): three draws of 32, 16 and 16
bytes, presented with the values of `seq` one after the other, give the three fields; then one StoreWrite of them. A
byte of an answer is the one lined up in `entropyIn`, or else a free value (log entry 4), and no byte of the store is
used. -/
def Obligations.GinitSynthesisesFreshState : Prop :=
  ∀ s : State, s.fatal = false → s.gstate = .uninitialized → parseRecord s.params s.store = none →
    ∃ t : Triple,
      (∀ i : Fin 32, t.key[i] = (s.entropyIn[i.val]?).getD (Config.entropyByte s.draws 32 s.seq i.val)) ∧
      (∀ i : Fin 16, ctrByte t.ctr i.val
        = (s.entropyIn[32 + i.val]?).getD (Config.entropyByte (s.draws + 1) 16 (s.seq + 1) i.val)) ∧
      (∀ i : Fin 16, t.block[i]
        = (s.entropyIn[48 + i.val]?).getD (Config.entropyByte (s.draws + 2) 16 (s.seq + 2) i.val)) ∧
      exec .ginit s = .next { s with
        triple := some t, ctxG := some (contextOf t.key), cursor := some 16, gstate := .ready, seq := s.seq + 3
        store := storeAfter s.params (serializeRecord t) s.store
          ((s.outcomesIn[0]?).getD (Config.writeOutcome (s.draws + 3)))
        draws := s.draws + 4, entropyIn := s.entropyIn.drop 64, outcomesIn := s.outcomesIn.drop 1 }

/-- GINIT of a generator that is not Uninitialized has no effect (42 R191). -/
def Obligations.GinitWhenInitialisedHasNoEffect : Prop :=
  ∀ s : State, s.gstate ≠ .uninitialized → exec .ginit s = .next s

/-- What is common to the generator commands (42 R180): no start in the fatal state; lazy initialisation, so that the
first of them after reset does what GINIT and then the command would; and none raises a fatal error ("derived: from rules R187 and R189"). -/
def Obligations.FirstCommandInitialises : Prop :=
  (∀ s : State, s.fatal = true → ∀ i : Instr, i.isGenerator = true → exec i s = .next s) ∧
  (∀ s : State, s.fatal = false → s.gstate = .uninitialized →
    ∃ u t, exec .ginit s = .next u ∧ u.ReadyWith t 16 ∧ u.fatal = false ∧
      exec .advance s = exec .advance u ∧ exec .nextbyte s = exec .nextbyte u) ∧
  ∀ (s u : State) (i : Instr), i.isGenerator = true → exec i s = .next u → u.fatal = s.fatal ∧ u.cause = s.cause

/-- ADVANCE of a Ready generator (42 R189, R190, R192): whatever the cursor, the counter plus 1, the new block the
encryption under CipherKey of the previous block xor the incremented counter's bytes, one StoreWrite of the new
record, the cursor 0, and nothing else. -/
def Obligations.AdvanceProducesTheNextBlock : Prop :=
  ∀ (s : State) (t : Triple) (c : Fin 17), s.fatal = false → s.ReadyWith t c →
    ∃ t' : Triple, t'.key = t.key ∧ t'.ctr = t.ctr + 1 ∧
      t'.block = encrypt (keySchedule t.key) (Vector.ofFn fun i => t.block[i] ^^^ ctrByte (t.ctr + 1) i.val) ∧
      exec .advance s = .next { s with
        triple := some t', cursor := some 0
        store := storeAfter s.params (serializeRecord t') s.store (nextOutcome s)
        draws := s.draws + 1, outcomesIn := s.outcomesIn.drop 1 }

/-- NEXTBYTE (42 R193): an Uninitialized generator is initialised first, as GINIT does it; below cursor 16 the byte
at the cursor and the cursor plus 1, nothing else; at 16 an ADVANCE first, and then byte 0 of the new block. -/
def Obligations.NextbyteReturnsTheByteAtTheCursor : Prop :=
  (∀ s : State, s.fatal = false → s.gstate = .uninitialized → ∃ u t, exec .ginit s = .next u ∧ u.ReadyWith t 16 ∧
    u.fatal = false ∧ exec .nextbyte s = exec .nextbyte u) ∧
  ∀ (s : State) (t : Triple) (c : Fin 17), s.fatal = false → s.ReadyWith t c →
    (∀ h : c.val < 16, exec .nextbyte s = .next { s with
      byteout := t.block[c.val], cursor := some ⟨c.val + 1, by omega⟩ }) ∧
    (c = 16 → ∃ u t', exec .advance s = .next u ∧ u.ReadyWith t' 0 ∧
      exec .nextbyte s = .next { u with byteout := t'.block[0], cursor := some 1 })

/-- While Ready, only ADVANCE, and NEXTBYTE at cursor 16, change the triple, and by exactly one advance; CipherKey
never changes (10 R33 to R35; 42 R189, R194). -/
def Obligations.OnlyAnAdvanceChangesTheTriple : Prop :=
  ∀ (s u : State) (i : Instr) (t : Triple) (c : Fin 17), i.wellFormed = true → s.ReadyWith t c →
    exec i s = .next u → ∃ t' c', u.ReadyWith t' c' ∧ t'.key = t.key ∧
      (t' = t ∨ (s.fatal = false ∧ (i = .advance ∨ (i = .nextbyte ∧ c = 16)) ∧ t' = nextKeystreamBlock t))

/-! ### Laws of the generator -/

/-- The counter law (42 R194): N advances add exactly N modulo 2^128, nothing else changes the counter after
initialisation, and one more carries from the low word into the high word ("derived: from rule R189"). -/
def Obligations.CounterLaw : Prop :=
  (∀ (n : Nat) (s : State) (t : Triple) (c : Fin 17), s.fatal = false → s.ReadyWith t c →
    ∃ u t' c', execAll (List.replicate n .advance) s = .next u ∧ u.ReadyWith t' c' ∧
      t'.ctr.toNat = (t.ctr.toNat + n) % 2 ^ 128) ∧
  (∀ (s u : State) (i : Instr) (t : Triple) (c : Fin 17), i.wellFormed = true → s.ReadyWith t c →
    exec i s = .next u → i ≠ .advance → ¬ (i = .nextbyte ∧ c = 16) → ∃ c', u.ReadyWith t c') ∧
  ∀ c : Counter,
    (ctrLow c = 0xFFFFFFFFFFFFFFFF#64 → ctrLow (c + 1) = 0#64 ∧ ctrHigh (c + 1) = ctrHigh c + 1) ∧
    (ctrLow c ≠ 0xFFFFFFFFFFFFFFFF#64 → ctrLow (c + 1) = ctrLow c + 1 ∧ ctrHigh (c + 1) = ctrHigh c)

/-- The determinism law (42 R195, "derived: from rules R187, R189, R193"): two Ready engines with the same triple and
cursor go through the same triples, cursors and bytes under the same generator commands, whatever else they hold: the
store, the outcomes of its writes, context U, `seq`, the byte returned last. The first clause says that such runs
exist; the second allows any other instructions between the generator commands, in each run its own, as long as neither
run ends in the fatal state. -/
def Obligations.KeystreamIsDeterministic : Prop :=
  (∀ (is : List Instr) (s s' : State) (t : Triple) (c : Fin 17), (∀ i ∈ is, i.isGenerator = true) →
    s.fatal = false → s'.fatal = false → s.ReadyWith t c → s'.ReadyWith t c →
    ∃ u u' t' c', execAll is s = .next u ∧ execAll is s' = .next u' ∧ u.ReadyWith t' c' ∧ u'.ReadyWith t' c' ∧
      (s.byteout = s'.byteout ∨ .nextbyte ∈ is → u.byteout = u'.byteout)) ∧
  ∀ (is is' : List Instr) (s s' u u' : State) (t : Triple) (c : Fin 17),
    (∀ i ∈ is ++ is', i.wellFormed = true) → is.filter Instr.isGenerator = is'.filter Instr.isGenerator →
    s.ReadyWith t c → s'.ReadyWith t c → execAll is s = .next u → execAll is' s' = .next u' →
    u.fatal = false → u'.fatal = false →
    ∃ t' c', u.ReadyWith t' c' ∧ u'.ReadyWith t' c' ∧
      (s.byteout = s'.byteout ∨ .nextbyte ∈ is → u.byteout = u'.byteout)

/-- The sixteen bytes of a block come out in order, with no advance and no StoreWrite between them (42 R193). -/
def Obligations.SixteenBytesOfABlock : Prop :=
  ∀ (s : State) (t : Triple), s.fatal = false → s.ReadyWith t 0 →
    ∃ u, execAll (List.replicate 16 [.nextbyte, .rdbyte 0x00#8]).flatten s = .next u ∧
      u.returned = s.returned ++ t.block.toList ∧ u.ReadyWith t 16 ∧ u.store = s.store ∧ u.draws = s.draws

/-- The cost law (42 R198): n NEXTBYTEs of a Ready generator take ceil((n - (16 - cursor)) / 16) advances, each one
StoreWrite, and none while bytes are left ("derived: from rule R193"). -/
def Obligations.CostLaw : Prop :=
  ∀ (n : Nat) (s : State) (t : Triple) (c : Fin 17), s.fatal = false → s.ReadyWith t c →
    let advances : Nat := (n - (16 - c.val) + 15) / 16
    ∃ u t' c', execAll (List.replicate n .nextbyte) s = .next u ∧ u.ReadyWith t' c' ∧
      t'.ctr = t.ctr + BitVec.ofNat 128 advances ∧ u.draws = s.draws + advances ∧
      u.outcomesIn = s.outcomesIn.drop advances

/-- The resume law (42 R196, "derived: from rules R187, R189, R195"; 70 R271): with a record R in the store, reset and one advance give the block that
follows R; with the same R put back, reset and one advance give it again. -/
def Obligations.ResumeRepeatsTheBlock : Prop :=
  ∀ (s : State) (t : Triple), parseRecord s.params s.store = some t →
    ∃ u t' v w, exec .advance (resetEngine s) = .next u ∧ u.triple = some t' ∧
      t'.block = encrypt (keySchedule t.key) (xorBytes t.block (ctrBytes (t.ctr + 1))) ∧
      outsideStore s.store (resetEngine u) = .next v ∧ exec .advance v = .next w ∧ w.triple = u.triple

/-- Keystream replay after a failed write (70 R270) that leaves the store, as every one does unless
PERSIST_FAIL_CORRUPTS holds (20 R67): the engine goes on with the new block, and after a reset the next advance makes
the same block again. -/
def Obligations.FailedWriteThenResetReplays : Prop :=
  ∀ (s : State) (t : Triple) (c : Fin 17), s.fatal = false → s.ReadyWith t c →
    parseRecord s.params s.store = some t →
    (nextOutcome s = .failKept ∨ (nextOutcome s = .failLost ∧ s.params.persistFailCorrupts = false)) →
    ∃ u v, exec .advance s = .next u ∧ u.triple = some (nextKeystreamBlock t) ∧ u.fatal = false ∧
      u.store = s.store ∧ exec .advance (resetEngine u) = .next v ∧ v.triple = u.triple

/-- The persistence law (42 R197, "derived: from rules R187, R188, R189"): while the StoreWrites of every step return
ok, whether their outcomes are lined up or free, the store holds the engine's triple whenever the generator is Ready,
at every command boundary. -/
def Obligations.StoreStaysInSync : Prop :=
  ∀ s u : State, s.Inv → s.InSync →
    (∀ w : BusWord, s.program[s.pos]? = some (.word w) → ∀ o ∈ s.writeOutcomes (decodeWord w), o = .ok) →
    step s = .next u → u.InSync

/-- `State.writeOutcomes` is the outcomes that an instruction takes, none left out (20 R67, 42 R187 to R193): as many
are drawn, they are the ones lined up as far as those reach, and without one the store stays as it was. -/
def Obligations.WriteOutcomesAreTheOnesTaken : Prop :=
  ∀ (s t : State) (i : Instr), i.wellFormed = true → s.Inv → exec i s = .next t →
    t.outcomesIn = s.outcomesIn.drop (s.writeOutcomes i).length ∧
    (∀ j : Nat, j < (s.writeOutcomes i).length → j < s.outcomesIn.length →
      (s.writeOutcomes i)[j]? = s.outcomesIn[j]?) ∧
    (s.writeOutcomes i = [] → t.store = s.store) ∧
    (i.isGenerator = false ∨ s.fatal = true → s.writeOutcomes i = [])

/-- After a reset from a state whose store is in agreement, initialisation loads the triple the engine had, with the
cursor at 16, and its next advance uses the next counter value (42 R197, "derived: from rules R187, R188, R189"). -/
def Obligations.CleanRestartContinues : Prop :=
  ∀ (s : State) (t : Triple) (c : Fin 17), s.ReadyWith t c → s.InSync → recordConsistent s.params t = true →
    ∃ u v, exec .ginit (resetEngine s) = .next u ∧ u.ReadyWith t 16 ∧
      exec .advance (resetEngine s) = .next v ∧ v.triple = some (nextKeystreamBlock t)

/-! ### What each instruction leaves alone -/

/-- The contexts are independent (10 R31, 41 R160, 42 R180): the cipher commands and ILLEGAL touch nothing of the
generator, context G, BYTEOUT, `seq` or the store, and the generator commands touch nothing of context U, KEYIN, DIN,
DOUT or the fault bits; none touches the host program or the results of the run. -/
def Obligations.CommandFrames : Prop :=
  ∀ (s t : State) (i : Instr), exec i s = .next t →
    ((i = .setkey ∨ i = .enc ∨ i = .dec ∨ ∃ op, i = .illegal op) → t = { s with
      keyin := t.keyin, keyinMask := t.keyinMask, dout := t.dout, ctxU := t.ctxU, fatal := t.fatal
      cause := t.cause }) ∧
    (i.isGenerator = true → t = { s with
      byteout := t.byteout, ctxG := t.ctxG, gstate := t.gstate, triple := t.triple, cursor := t.cursor
      seq := t.seq, store := t.store, draws := t.draws, entropyIn := t.entropyIn, outcomesIn := t.outcomesIn })

/-- Who writes each host register and the store (10 R22 to R25, R39): KEYIN and its mask only SETKEY and a write to
them, DIN only a write to it, DOUT only ENC and DEC, BYTEOUT only NEXTBYTE, the store only the generator commands, the
results of the run only a read. -/
def Obligations.WhoWritesEachRegister : Prop :=
  ∀ (s t : State) (i : Instr), i.wellFormed = true → exec i s = .next t →
    ((t.keyin ≠ s.keyin ∨ t.keyinMask ≠ s.keyinMask) → i = .setkey ∨ ∃ a d, i = .wr a d ∧ a.toNat < 0x20) ∧
    (t.din ≠ s.din → ∃ a d, i = .wr a d ∧ 0x20 ≤ a.toNat ∧ a.toNat < 0x30) ∧
    (t.dout ≠ s.dout → i = .enc ∨ i = .dec) ∧
    (t.byteout ≠ s.byteout → i = .nextbyte) ∧
    (t.store ≠ s.store → i.isGenerator = true) ∧
    (t.returned ≠ s.returned → i.isRead = true)

/-- The keyed flags (10 R29): keyedU is set by a SETKEY that completes and keyedG by the initialisation of the
generator, and no instruction sets or clears either otherwise. -/
def Obligations.KeyedFlags : Prop :=
  ∀ (s t : State) (i : Instr), i.wellFormed = true → exec i s = .next t →
    t.keyedU = (s.keyedU || decide (i = .setkey ∧ s.fatal = false ∧ s.keyinMask = 0xFFFFFFFF#32)) ∧
    t.keyedG = (s.keyedG || decide (i.isGenerator = true ∧ s.fatal = false ∧ s.gstate = .uninitialized))

/-- No secret is exposed (10 R24, R28; 60 R239): but for NEXTBYTE, no sequence of instructions tells the host anything
of the generator's key, counter, block, cursor, state, round keys or store. -/
def Obligations.OnlyNextbyteReveals : Prop :=
  ∀ (is : List Instr) (s s' t t' : State), (∀ i ∈ is, i.wellFormed = true ∧ i ≠ .nextbyte) →
    s.SameHostView s' → execAll is s = .next t → execAll is s' = .next t' → t.SameHostView t'

/-- The step lemma of OnlyNextbyteReveals: every step at the same item in two states that the host cannot tell apart,
RESET and the outside agent's move among them (as items of the program: the model's choice, log entries 7 and 9),
leaves two states that it cannot tell apart, unless the item is the word of NEXTBYTE. -/
def Obligations.EveryOtherStepKeepsTheHostView : Prop :=
  ∀ s s' u u' : State, s.SameHostView s' → s.program[s.pos]? = s'.program[s'.pos]? →
    s.program[s.pos]? ≠ some (.word 0xC012#16) → step s = .next u → step s' = .next u' → u.SameHostView u'
end

