-- ==== Sys2Proof/Laws/Cipher.lean ====
section
/-! SUPPORT. The bytes of what the cipher's functions and the record's functions return: one lemma per function, so
that no later proof unfolds a `Vector.ofFn`. -/

namespace Sys2Proof.Machine

@[simp] theorem xorBytes_getElem {n : Nat} (a b : Vector Byte n) (i : Nat) (h : i < n) :
    (xorBytes a b)[i] = a[i] ^^^ b[i] := by simp [xorBytes]

@[simp] theorem addRoundKey_getElem (s rk : Block) (i : Nat) (h : i < 16) :
    (addRoundKey s rk)[i] = s[i] ^^^ rk[i] := by simp [addRoundKey]

@[simp] theorem subBytes_getElem (s : Block) (i : Nat) (h : i < 16) :
    (subBytes s)[i] = sBox s[i] := by simp [subBytes]

@[simp] theorem invSubBytes_getElem (s : Block) (i : Nat) (h : i < 16) :
    (invSubBytes s)[i] = invSBox s[i] := by simp [invSubBytes]

@[simp] theorem subWord_getElem (w : KeyWord) (i : Nat) (h : i < 4) :
    (subWord w)[i] = sBox w[i] := by simp [subWord]

theorem shiftRows_getElem (s : Block) (i : Nat) (h : i < 16) :
    (shiftRows s)[i] = s[i % 4 + 4 * ((i / 4 + i % 4) % 4)]'(by omega) := by simp [shiftRows]

theorem invShiftRows_getElem (s : Block) (i : Nat) (h : i < 16) :
    (invShiftRows s)[i] = s[i % 4 + 4 * ((i / 4 + 4 - i % 4) % 4)]'(by omega) := by simp [invShiftRows]

theorem onColumns_getElem (f : Byte → Byte → Byte → Byte → KeyWord) (s : Block) (i : Nat) (h : i < 16) :
    (onColumns f s)[i] =
      (f (s[4 * (i / 4)]'(by omega)) (s[4 * (i / 4) + 1]'(by omega)) (s[4 * (i / 4) + 2]'(by omega))
        (s[4 * (i / 4) + 3]'(by omega)))[i % 4]'(by omega) := by simp [onColumns]

@[simp] theorem inverseSchedule_getElem (ek : RoundKeys) (r : Nat) (h : r < 15) :
    (inverseSchedule ek)[r] = ek[14 - r]'(by omega) := by simp [inverseSchedule]

theorem keySchedule_getElem (k : Key) (r : Nat) (hr : r < 15) (j : Nat) (hj : j < 16) :
    (keySchedule k)[r][j] = (scheduleWord (expandKey k) (4 * r + j / 4))[j % 4]'(by omega) := by
  simp [keySchedule]

@[simp] theorem expandKeyTo_length (k : Key) (n : Nat) : (expandKeyTo k n).length = n := by
  induction n with
  | zero => rfl
  | succ n ih => simp [expandKeyTo, ih]

@[simp] theorem ctrBytes_getElem (c : Counter) (i : Nat) (h : i < 16) : (ctrBytes c)[i] = ctrByte c i := by
  simp [ctrBytes]

@[simp] theorem advancePlaintext_getElem (c : Counter) (b : Block) (i : Nat) (h : i < 16) :
    (advancePlaintext c b)[i] = b[i] ^^^ ctrByte c i := by simp [advancePlaintext]

/-- A serialised record is 64 bytes (20 R64). -/
@[simp] theorem serializeRecord_length (t : Triple) : (serializeRecord t).length = 64 := by
  simp [serializeRecord]

theorem recordFields_key_getElem (s : List Byte) (h : s.length = 64) (i : Nat) (hi : i < 32) :
    (recordFields s h).key[i] = s[i] := by simp [recordFields]

theorem recordFields_block_getElem (s : List Byte) (h : s.length = 64) (i : Nat) (hi : i < 16) :
    (recordFields s h).block[i] = s[48 + i] := by simp [recordFields]

theorem recordFields_ctr (s : List Byte) (h : s.length = 64) :
    (recordFields s h).ctr = ctrFromBytes (Vector.ofFn fun i : Fin 16 => s[32 + i.val]) := by simp [recordFields]

theorem ctrFromBytes_eq (b : Block) : ctrFromBytes b = BitVec.ofNat 128 (littleEndian b.toList) := by
  simp [ctrFromBytes]

/-- What a successful parse says of the content: 64 bytes, whose fields are the triple, and consistent (20 R65). -/
theorem parseRecord_some {p : Params} {c : Option (List Byte)} {t : Triple} (h : parseRecord p c = some t) :
    ∃ (s : List Byte) (hs : s.length = 64), c = some s ∧ recordFields s hs = t ∧ recordConsistent p t = true := by
  unfold parseRecord at h
  split at h
  · cases h
  · next s =>
    split at h
    · next hs =>
      split at h
      · next hc =>
        have ht := Option.some.inj h
        exact ⟨s, hs, rfl, ht, ht ▸ hc⟩
      · cases h
    · cases h

end Sys2Proof.Machine
end

