-- ==== Sys2Proof/Laws/State.lean ====
section
/-! SUPPORT. The fields of a state after each update the meanings are built from: one lemma per field and update, so
that no later proof unfolds a record update. -/

namespace Sys2Proof.Machine

/-! ### `raiseFatal` -/

@[simp] theorem raiseFatal_keyin (c : Cause) (s : State) :
    (raiseFatal c s).keyin = s.keyin := rfl
@[simp] theorem raiseFatal_keyinMask (c : Cause) (s : State) :
    (raiseFatal c s).keyinMask = s.keyinMask := rfl
@[simp] theorem raiseFatal_din (c : Cause) (s : State) :
    (raiseFatal c s).din = s.din := rfl
@[simp] theorem raiseFatal_dout (c : Cause) (s : State) :
    (raiseFatal c s).dout = s.dout := rfl
@[simp] theorem raiseFatal_byteout (c : Cause) (s : State) :
    (raiseFatal c s).byteout = s.byteout := rfl
@[simp] theorem raiseFatal_ctxU (c : Cause) (s : State) :
    (raiseFatal c s).ctxU = s.ctxU := rfl
@[simp] theorem raiseFatal_ctxG (c : Cause) (s : State) :
    (raiseFatal c s).ctxG = s.ctxG := rfl
@[simp] theorem raiseFatal_gstate (c : Cause) (s : State) :
    (raiseFatal c s).gstate = s.gstate := rfl
@[simp] theorem raiseFatal_triple (c : Cause) (s : State) :
    (raiseFatal c s).triple = s.triple := rfl
@[simp] theorem raiseFatal_cursor (c : Cause) (s : State) :
    (raiseFatal c s).cursor = s.cursor := rfl
@[simp] theorem raiseFatal_seq (c : Cause) (s : State) :
    (raiseFatal c s).seq = s.seq := rfl
@[simp] theorem raiseFatal_fatal (c : Cause) (s : State) :
    (raiseFatal c s).fatal = true := rfl
@[simp] theorem raiseFatal_cause (c : Cause) (s : State) :
    (raiseFatal c s).cause = causeCode c := rfl
@[simp] theorem raiseFatal_store (c : Cause) (s : State) :
    (raiseFatal c s).store = s.store := rfl
@[simp] theorem raiseFatal_program (c : Cause) (s : State) :
    (raiseFatal c s).program = s.program := rfl
@[simp] theorem raiseFatal_pos (c : Cause) (s : State) :
    (raiseFatal c s).pos = s.pos := rfl
@[simp] theorem raiseFatal_returned (c : Cause) (s : State) :
    (raiseFatal c s).returned = s.returned := rfl
@[simp] theorem raiseFatal_draws (c : Cause) (s : State) :
    (raiseFatal c s).draws = s.draws := rfl
@[simp] theorem raiseFatal_entropyIn (c : Cause) (s : State) :
    (raiseFatal c s).entropyIn = s.entropyIn := rfl
@[simp] theorem raiseFatal_outcomesIn (c : Cause) (s : State) :
    (raiseFatal c s).outcomesIn = s.outcomesIn := rfl
@[simp] theorem raiseFatal_params (c : Cause) (s : State) :
    (raiseFatal c s).params = s.params := rfl

/-! ### `resetEngine` -/

@[simp] theorem resetEngine_keyin (s : State) :
    (resetEngine s).keyin = Vector.replicate 32 0x00#8 := rfl
@[simp] theorem resetEngine_keyinMask (s : State) :
    (resetEngine s).keyinMask = 0#32 := rfl
@[simp] theorem resetEngine_din (s : State) :
    (resetEngine s).din = Vector.replicate 16 0x00#8 := rfl
@[simp] theorem resetEngine_dout (s : State) :
    (resetEngine s).dout = Vector.replicate 16 0x00#8 := rfl
@[simp] theorem resetEngine_byteout (s : State) :
    (resetEngine s).byteout = 0x00#8 := rfl
@[simp] theorem resetEngine_ctxU (s : State) :
    (resetEngine s).ctxU = none := rfl
@[simp] theorem resetEngine_ctxG (s : State) :
    (resetEngine s).ctxG = none := rfl
@[simp] theorem resetEngine_gstate (s : State) :
    (resetEngine s).gstate = .uninitialized := rfl
@[simp] theorem resetEngine_triple (s : State) :
    (resetEngine s).triple = none := rfl
@[simp] theorem resetEngine_cursor (s : State) :
    (resetEngine s).cursor = none := rfl
@[simp] theorem resetEngine_seq (s : State) :
    (resetEngine s).seq = 0#64 := rfl
@[simp] theorem resetEngine_fatal (s : State) :
    (resetEngine s).fatal = false := rfl
@[simp] theorem resetEngine_cause (s : State) :
    (resetEngine s).cause = 0#4 := rfl
@[simp] theorem resetEngine_store (s : State) :
    (resetEngine s).store = s.store := rfl
@[simp] theorem resetEngine_program (s : State) :
    (resetEngine s).program = s.program := rfl
@[simp] theorem resetEngine_pos (s : State) :
    (resetEngine s).pos = s.pos := rfl
@[simp] theorem resetEngine_returned (s : State) :
    (resetEngine s).returned = s.returned := rfl
@[simp] theorem resetEngine_draws (s : State) :
    (resetEngine s).draws = s.draws := rfl
@[simp] theorem resetEngine_entropyIn (s : State) :
    (resetEngine s).entropyIn = s.entropyIn := rfl
@[simp] theorem resetEngine_outcomesIn (s : State) :
    (resetEngine s).outcomesIn = s.outcomesIn := rfl
@[simp] theorem resetEngine_params (s : State) :
    (resetEngine s).params = s.params := rfl

/-! ### `respond` -/

@[simp] theorem respond_keyin (b : Byte) (s : State) :
    (respond b s).keyin = s.keyin := rfl
@[simp] theorem respond_keyinMask (b : Byte) (s : State) :
    (respond b s).keyinMask = s.keyinMask := rfl
@[simp] theorem respond_din (b : Byte) (s : State) :
    (respond b s).din = s.din := rfl
@[simp] theorem respond_dout (b : Byte) (s : State) :
    (respond b s).dout = s.dout := rfl
@[simp] theorem respond_byteout (b : Byte) (s : State) :
    (respond b s).byteout = s.byteout := rfl
@[simp] theorem respond_ctxU (b : Byte) (s : State) :
    (respond b s).ctxU = s.ctxU := rfl
@[simp] theorem respond_ctxG (b : Byte) (s : State) :
    (respond b s).ctxG = s.ctxG := rfl
@[simp] theorem respond_gstate (b : Byte) (s : State) :
    (respond b s).gstate = s.gstate := rfl
@[simp] theorem respond_triple (b : Byte) (s : State) :
    (respond b s).triple = s.triple := rfl
@[simp] theorem respond_cursor (b : Byte) (s : State) :
    (respond b s).cursor = s.cursor := rfl
@[simp] theorem respond_seq (b : Byte) (s : State) :
    (respond b s).seq = s.seq := rfl
@[simp] theorem respond_fatal (b : Byte) (s : State) :
    (respond b s).fatal = s.fatal := rfl
@[simp] theorem respond_cause (b : Byte) (s : State) :
    (respond b s).cause = s.cause := rfl
@[simp] theorem respond_store (b : Byte) (s : State) :
    (respond b s).store = s.store := rfl
@[simp] theorem respond_program (b : Byte) (s : State) :
    (respond b s).program = s.program := rfl
@[simp] theorem respond_pos (b : Byte) (s : State) :
    (respond b s).pos = s.pos := rfl
@[simp] theorem respond_returned (b : Byte) (s : State) :
    (respond b s).returned = s.returned ++ [b] := rfl
@[simp] theorem respond_draws (b : Byte) (s : State) :
    (respond b s).draws = s.draws := rfl
@[simp] theorem respond_entropyIn (b : Byte) (s : State) :
    (respond b s).entropyIn = s.entropyIn := rfl
@[simp] theorem respond_outcomesIn (b : Byte) (s : State) :
    (respond b s).outcomesIn = s.outcomesIn := rfl
@[simp] theorem respond_params (b : Byte) (s : State) :
    (respond b s).params = s.params := rfl

/-! ### `writeKeyin` -/

@[simp] theorem writeKeyin_keyin (i : Nat) (h : i < 32) (v : Byte) (s : State) :
    (writeKeyin i h v s).keyin = s.keyin.set i v := rfl
@[simp] theorem writeKeyin_keyinMask (i : Nat) (h : i < 32) (v : Byte) (s : State) :
    (writeKeyin i h v s).keyinMask = s.keyinMask ||| (1#32 <<< i) := rfl
@[simp] theorem writeKeyin_din (i : Nat) (h : i < 32) (v : Byte) (s : State) :
    (writeKeyin i h v s).din = s.din := rfl
@[simp] theorem writeKeyin_dout (i : Nat) (h : i < 32) (v : Byte) (s : State) :
    (writeKeyin i h v s).dout = s.dout := rfl
@[simp] theorem writeKeyin_byteout (i : Nat) (h : i < 32) (v : Byte) (s : State) :
    (writeKeyin i h v s).byteout = s.byteout := rfl
@[simp] theorem writeKeyin_ctxU (i : Nat) (h : i < 32) (v : Byte) (s : State) :
    (writeKeyin i h v s).ctxU = s.ctxU := rfl
@[simp] theorem writeKeyin_ctxG (i : Nat) (h : i < 32) (v : Byte) (s : State) :
    (writeKeyin i h v s).ctxG = s.ctxG := rfl
@[simp] theorem writeKeyin_gstate (i : Nat) (h : i < 32) (v : Byte) (s : State) :
    (writeKeyin i h v s).gstate = s.gstate := rfl
@[simp] theorem writeKeyin_triple (i : Nat) (h : i < 32) (v : Byte) (s : State) :
    (writeKeyin i h v s).triple = s.triple := rfl
@[simp] theorem writeKeyin_cursor (i : Nat) (h : i < 32) (v : Byte) (s : State) :
    (writeKeyin i h v s).cursor = s.cursor := rfl
@[simp] theorem writeKeyin_seq (i : Nat) (h : i < 32) (v : Byte) (s : State) :
    (writeKeyin i h v s).seq = s.seq := rfl
@[simp] theorem writeKeyin_fatal (i : Nat) (h : i < 32) (v : Byte) (s : State) :
    (writeKeyin i h v s).fatal = s.fatal := rfl
@[simp] theorem writeKeyin_cause (i : Nat) (h : i < 32) (v : Byte) (s : State) :
    (writeKeyin i h v s).cause = s.cause := rfl
@[simp] theorem writeKeyin_store (i : Nat) (h : i < 32) (v : Byte) (s : State) :
    (writeKeyin i h v s).store = s.store := rfl
@[simp] theorem writeKeyin_program (i : Nat) (h : i < 32) (v : Byte) (s : State) :
    (writeKeyin i h v s).program = s.program := rfl
@[simp] theorem writeKeyin_pos (i : Nat) (h : i < 32) (v : Byte) (s : State) :
    (writeKeyin i h v s).pos = s.pos := rfl
@[simp] theorem writeKeyin_returned (i : Nat) (h : i < 32) (v : Byte) (s : State) :
    (writeKeyin i h v s).returned = s.returned := rfl
@[simp] theorem writeKeyin_draws (i : Nat) (h : i < 32) (v : Byte) (s : State) :
    (writeKeyin i h v s).draws = s.draws := rfl
@[simp] theorem writeKeyin_entropyIn (i : Nat) (h : i < 32) (v : Byte) (s : State) :
    (writeKeyin i h v s).entropyIn = s.entropyIn := rfl
@[simp] theorem writeKeyin_outcomesIn (i : Nat) (h : i < 32) (v : Byte) (s : State) :
    (writeKeyin i h v s).outcomesIn = s.outcomesIn := rfl
@[simp] theorem writeKeyin_params (i : Nat) (h : i < 32) (v : Byte) (s : State) :
    (writeKeyin i h v s).params = s.params := rfl

/-! ### `writeDin` -/

@[simp] theorem writeDin_keyin (i : Nat) (h : i < 16) (v : Byte) (s : State) :
    (writeDin i h v s).keyin = s.keyin := rfl
@[simp] theorem writeDin_keyinMask (i : Nat) (h : i < 16) (v : Byte) (s : State) :
    (writeDin i h v s).keyinMask = s.keyinMask := rfl
@[simp] theorem writeDin_din (i : Nat) (h : i < 16) (v : Byte) (s : State) :
    (writeDin i h v s).din = s.din.set i v := rfl
@[simp] theorem writeDin_dout (i : Nat) (h : i < 16) (v : Byte) (s : State) :
    (writeDin i h v s).dout = s.dout := rfl
@[simp] theorem writeDin_byteout (i : Nat) (h : i < 16) (v : Byte) (s : State) :
    (writeDin i h v s).byteout = s.byteout := rfl
@[simp] theorem writeDin_ctxU (i : Nat) (h : i < 16) (v : Byte) (s : State) :
    (writeDin i h v s).ctxU = s.ctxU := rfl
@[simp] theorem writeDin_ctxG (i : Nat) (h : i < 16) (v : Byte) (s : State) :
    (writeDin i h v s).ctxG = s.ctxG := rfl
@[simp] theorem writeDin_gstate (i : Nat) (h : i < 16) (v : Byte) (s : State) :
    (writeDin i h v s).gstate = s.gstate := rfl
@[simp] theorem writeDin_triple (i : Nat) (h : i < 16) (v : Byte) (s : State) :
    (writeDin i h v s).triple = s.triple := rfl
@[simp] theorem writeDin_cursor (i : Nat) (h : i < 16) (v : Byte) (s : State) :
    (writeDin i h v s).cursor = s.cursor := rfl
@[simp] theorem writeDin_seq (i : Nat) (h : i < 16) (v : Byte) (s : State) :
    (writeDin i h v s).seq = s.seq := rfl
@[simp] theorem writeDin_fatal (i : Nat) (h : i < 16) (v : Byte) (s : State) :
    (writeDin i h v s).fatal = s.fatal := rfl
@[simp] theorem writeDin_cause (i : Nat) (h : i < 16) (v : Byte) (s : State) :
    (writeDin i h v s).cause = s.cause := rfl
@[simp] theorem writeDin_store (i : Nat) (h : i < 16) (v : Byte) (s : State) :
    (writeDin i h v s).store = s.store := rfl
@[simp] theorem writeDin_program (i : Nat) (h : i < 16) (v : Byte) (s : State) :
    (writeDin i h v s).program = s.program := rfl
@[simp] theorem writeDin_pos (i : Nat) (h : i < 16) (v : Byte) (s : State) :
    (writeDin i h v s).pos = s.pos := rfl
@[simp] theorem writeDin_returned (i : Nat) (h : i < 16) (v : Byte) (s : State) :
    (writeDin i h v s).returned = s.returned := rfl
@[simp] theorem writeDin_draws (i : Nat) (h : i < 16) (v : Byte) (s : State) :
    (writeDin i h v s).draws = s.draws := rfl
@[simp] theorem writeDin_entropyIn (i : Nat) (h : i < 16) (v : Byte) (s : State) :
    (writeDin i h v s).entropyIn = s.entropyIn := rfl
@[simp] theorem writeDin_outcomesIn (i : Nat) (h : i < 16) (v : Byte) (s : State) :
    (writeDin i h v s).outcomesIn = s.outcomesIn := rfl
@[simp] theorem writeDin_params (i : Nat) (h : i < 16) (v : Byte) (s : State) :
    (writeDin i h v s).params = s.params := rfl

/-! ### `advancePos` -/

@[simp] theorem advancePos_keyin (s : State) :
    (advancePos s).keyin = s.keyin := rfl
@[simp] theorem advancePos_keyinMask (s : State) :
    (advancePos s).keyinMask = s.keyinMask := rfl
@[simp] theorem advancePos_din (s : State) :
    (advancePos s).din = s.din := rfl
@[simp] theorem advancePos_dout (s : State) :
    (advancePos s).dout = s.dout := rfl
@[simp] theorem advancePos_byteout (s : State) :
    (advancePos s).byteout = s.byteout := rfl
@[simp] theorem advancePos_ctxU (s : State) :
    (advancePos s).ctxU = s.ctxU := rfl
@[simp] theorem advancePos_ctxG (s : State) :
    (advancePos s).ctxG = s.ctxG := rfl
@[simp] theorem advancePos_gstate (s : State) :
    (advancePos s).gstate = s.gstate := rfl
@[simp] theorem advancePos_triple (s : State) :
    (advancePos s).triple = s.triple := rfl
@[simp] theorem advancePos_cursor (s : State) :
    (advancePos s).cursor = s.cursor := rfl
@[simp] theorem advancePos_seq (s : State) :
    (advancePos s).seq = s.seq := rfl
@[simp] theorem advancePos_fatal (s : State) :
    (advancePos s).fatal = s.fatal := rfl
@[simp] theorem advancePos_cause (s : State) :
    (advancePos s).cause = s.cause := rfl
@[simp] theorem advancePos_store (s : State) :
    (advancePos s).store = s.store := rfl
@[simp] theorem advancePos_program (s : State) :
    (advancePos s).program = s.program := rfl
@[simp] theorem advancePos_pos (s : State) :
    (advancePos s).pos = s.pos + 1 := rfl
@[simp] theorem advancePos_returned (s : State) :
    (advancePos s).returned = s.returned := rfl
@[simp] theorem advancePos_draws (s : State) :
    (advancePos s).draws = s.draws := rfl
@[simp] theorem advancePos_entropyIn (s : State) :
    (advancePos s).entropyIn = s.entropyIn := rfl
@[simp] theorem advancePos_outcomesIn (s : State) :
    (advancePos s).outcomesIn = s.outcomesIn := rfl
@[simp] theorem advancePos_params (s : State) :
    (advancePos s).params = s.params := rfl

/-! ### `adopt` -/

@[simp] theorem adopt_keyin (t : Triple) (g : GState) (s : State) :
    (adopt t g s).keyin = s.keyin := rfl
@[simp] theorem adopt_keyinMask (t : Triple) (g : GState) (s : State) :
    (adopt t g s).keyinMask = s.keyinMask := rfl
@[simp] theorem adopt_din (t : Triple) (g : GState) (s : State) :
    (adopt t g s).din = s.din := rfl
@[simp] theorem adopt_dout (t : Triple) (g : GState) (s : State) :
    (adopt t g s).dout = s.dout := rfl
@[simp] theorem adopt_byteout (t : Triple) (g : GState) (s : State) :
    (adopt t g s).byteout = s.byteout := rfl
@[simp] theorem adopt_ctxU (t : Triple) (g : GState) (s : State) :
    (adopt t g s).ctxU = s.ctxU := rfl
@[simp] theorem adopt_ctxG (t : Triple) (g : GState) (s : State) :
    (adopt t g s).ctxG = s.ctxG := rfl
@[simp] theorem adopt_gstate (t : Triple) (g : GState) (s : State) :
    (adopt t g s).gstate = g := rfl
@[simp] theorem adopt_triple (t : Triple) (g : GState) (s : State) :
    (adopt t g s).triple = some t := rfl
@[simp] theorem adopt_cursor (t : Triple) (g : GState) (s : State) :
    (adopt t g s).cursor = s.cursor := rfl
@[simp] theorem adopt_seq (t : Triple) (g : GState) (s : State) :
    (adopt t g s).seq = s.seq := rfl
@[simp] theorem adopt_fatal (t : Triple) (g : GState) (s : State) :
    (adopt t g s).fatal = s.fatal := rfl
@[simp] theorem adopt_cause (t : Triple) (g : GState) (s : State) :
    (adopt t g s).cause = s.cause := rfl
@[simp] theorem adopt_store (t : Triple) (g : GState) (s : State) :
    (adopt t g s).store = s.store := rfl
@[simp] theorem adopt_program (t : Triple) (g : GState) (s : State) :
    (adopt t g s).program = s.program := rfl
@[simp] theorem adopt_pos (t : Triple) (g : GState) (s : State) :
    (adopt t g s).pos = s.pos := rfl
@[simp] theorem adopt_returned (t : Triple) (g : GState) (s : State) :
    (adopt t g s).returned = s.returned := rfl
@[simp] theorem adopt_draws (t : Triple) (g : GState) (s : State) :
    (adopt t g s).draws = s.draws := rfl
@[simp] theorem adopt_entropyIn (t : Triple) (g : GState) (s : State) :
    (adopt t g s).entropyIn = s.entropyIn := rfl
@[simp] theorem adopt_outcomesIn (t : Triple) (g : GState) (s : State) :
    (adopt t g s).outcomesIn = s.outcomesIn := rfl
@[simp] theorem adopt_params (t : Triple) (g : GState) (s : State) :
    (adopt t g s).params = s.params := rfl

/-! ### `finishInit` -/

@[simp] theorem finishInit_keyin (t : Triple) (s : State) :
    (finishInit t s).keyin = s.keyin := rfl
@[simp] theorem finishInit_keyinMask (t : Triple) (s : State) :
    (finishInit t s).keyinMask = s.keyinMask := rfl
@[simp] theorem finishInit_din (t : Triple) (s : State) :
    (finishInit t s).din = s.din := rfl
@[simp] theorem finishInit_dout (t : Triple) (s : State) :
    (finishInit t s).dout = s.dout := rfl
@[simp] theorem finishInit_byteout (t : Triple) (s : State) :
    (finishInit t s).byteout = s.byteout := rfl
@[simp] theorem finishInit_ctxU (t : Triple) (s : State) :
    (finishInit t s).ctxU = s.ctxU := rfl
@[simp] theorem finishInit_ctxG (t : Triple) (s : State) :
    (finishInit t s).ctxG = some (contextOf t.key) := rfl
@[simp] theorem finishInit_gstate (t : Triple) (s : State) :
    (finishInit t s).gstate = .ready := rfl
@[simp] theorem finishInit_triple (t : Triple) (s : State) :
    (finishInit t s).triple = s.triple := rfl
@[simp] theorem finishInit_cursor (t : Triple) (s : State) :
    (finishInit t s).cursor = some 16 := rfl
@[simp] theorem finishInit_seq (t : Triple) (s : State) :
    (finishInit t s).seq = s.seq := rfl
@[simp] theorem finishInit_fatal (t : Triple) (s : State) :
    (finishInit t s).fatal = s.fatal := rfl
@[simp] theorem finishInit_cause (t : Triple) (s : State) :
    (finishInit t s).cause = s.cause := rfl
@[simp] theorem finishInit_store (t : Triple) (s : State) :
    (finishInit t s).store = s.store := rfl
@[simp] theorem finishInit_program (t : Triple) (s : State) :
    (finishInit t s).program = s.program := rfl
@[simp] theorem finishInit_pos (t : Triple) (s : State) :
    (finishInit t s).pos = s.pos := rfl
@[simp] theorem finishInit_returned (t : Triple) (s : State) :
    (finishInit t s).returned = s.returned := rfl
@[simp] theorem finishInit_draws (t : Triple) (s : State) :
    (finishInit t s).draws = s.draws := rfl
@[simp] theorem finishInit_entropyIn (t : Triple) (s : State) :
    (finishInit t s).entropyIn = s.entropyIn := rfl
@[simp] theorem finishInit_outcomesIn (t : Triple) (s : State) :
    (finishInit t s).outcomesIn = s.outcomesIn := rfl
@[simp] theorem finishInit_params (t : Triple) (s : State) :
    (finishInit t s).params = s.params := rfl

/-! ### `persist` -/

@[simp] theorem persist_keyin (t : Triple) (s : State) :
    (persist t s).keyin = s.keyin := rfl
@[simp] theorem persist_keyinMask (t : Triple) (s : State) :
    (persist t s).keyinMask = s.keyinMask := rfl
@[simp] theorem persist_din (t : Triple) (s : State) :
    (persist t s).din = s.din := rfl
@[simp] theorem persist_dout (t : Triple) (s : State) :
    (persist t s).dout = s.dout := rfl
@[simp] theorem persist_byteout (t : Triple) (s : State) :
    (persist t s).byteout = s.byteout := rfl
@[simp] theorem persist_ctxU (t : Triple) (s : State) :
    (persist t s).ctxU = s.ctxU := rfl
@[simp] theorem persist_ctxG (t : Triple) (s : State) :
    (persist t s).ctxG = s.ctxG := rfl
@[simp] theorem persist_gstate (t : Triple) (s : State) :
    (persist t s).gstate = s.gstate := rfl
@[simp] theorem persist_triple (t : Triple) (s : State) :
    (persist t s).triple = s.triple := rfl
@[simp] theorem persist_cursor (t : Triple) (s : State) :
    (persist t s).cursor = s.cursor := rfl
@[simp] theorem persist_seq (t : Triple) (s : State) :
    (persist t s).seq = s.seq := rfl
@[simp] theorem persist_fatal (t : Triple) (s : State) :
    (persist t s).fatal = s.fatal := rfl
@[simp] theorem persist_cause (t : Triple) (s : State) :
    (persist t s).cause = s.cause := rfl
@[simp] theorem persist_store (t : Triple) (s : State) :
    (persist t s).store = storeAfter s.params (serializeRecord t) s.store (nextOutcome s) := rfl
@[simp] theorem persist_program (t : Triple) (s : State) :
    (persist t s).program = s.program := rfl
@[simp] theorem persist_pos (t : Triple) (s : State) :
    (persist t s).pos = s.pos := rfl
@[simp] theorem persist_returned (t : Triple) (s : State) :
    (persist t s).returned = s.returned := rfl
@[simp] theorem persist_draws (t : Triple) (s : State) :
    (persist t s).draws = s.draws + 1 := rfl
@[simp] theorem persist_entropyIn (t : Triple) (s : State) :
    (persist t s).entropyIn = s.entropyIn := rfl
@[simp] theorem persist_outcomesIn (t : Triple) (s : State) :
    (persist t s).outcomesIn = s.outcomesIn.drop 1 := rfl
@[simp] theorem persist_params (t : Triple) (s : State) :
    (persist t s).params = s.params := rfl

/-! ### `entropyDraw_state` -/

@[simp] theorem entropyDraw_state_keyin (n : Nat) (s : State) :
    (entropyDraw n s).2.keyin = s.keyin := rfl
@[simp] theorem entropyDraw_state_keyinMask (n : Nat) (s : State) :
    (entropyDraw n s).2.keyinMask = s.keyinMask := rfl
@[simp] theorem entropyDraw_state_din (n : Nat) (s : State) :
    (entropyDraw n s).2.din = s.din := rfl
@[simp] theorem entropyDraw_state_dout (n : Nat) (s : State) :
    (entropyDraw n s).2.dout = s.dout := rfl
@[simp] theorem entropyDraw_state_byteout (n : Nat) (s : State) :
    (entropyDraw n s).2.byteout = s.byteout := rfl
@[simp] theorem entropyDraw_state_ctxU (n : Nat) (s : State) :
    (entropyDraw n s).2.ctxU = s.ctxU := rfl
@[simp] theorem entropyDraw_state_ctxG (n : Nat) (s : State) :
    (entropyDraw n s).2.ctxG = s.ctxG := rfl
@[simp] theorem entropyDraw_state_gstate (n : Nat) (s : State) :
    (entropyDraw n s).2.gstate = s.gstate := rfl
@[simp] theorem entropyDraw_state_triple (n : Nat) (s : State) :
    (entropyDraw n s).2.triple = s.triple := rfl
@[simp] theorem entropyDraw_state_cursor (n : Nat) (s : State) :
    (entropyDraw n s).2.cursor = s.cursor := rfl
@[simp] theorem entropyDraw_state_seq (n : Nat) (s : State) :
    (entropyDraw n s).2.seq = s.seq + 1 := rfl
@[simp] theorem entropyDraw_state_fatal (n : Nat) (s : State) :
    (entropyDraw n s).2.fatal = s.fatal := rfl
@[simp] theorem entropyDraw_state_cause (n : Nat) (s : State) :
    (entropyDraw n s).2.cause = s.cause := rfl
@[simp] theorem entropyDraw_state_store (n : Nat) (s : State) :
    (entropyDraw n s).2.store = s.store := rfl
@[simp] theorem entropyDraw_state_program (n : Nat) (s : State) :
    (entropyDraw n s).2.program = s.program := rfl
@[simp] theorem entropyDraw_state_pos (n : Nat) (s : State) :
    (entropyDraw n s).2.pos = s.pos := rfl
@[simp] theorem entropyDraw_state_returned (n : Nat) (s : State) :
    (entropyDraw n s).2.returned = s.returned := rfl
@[simp] theorem entropyDraw_state_draws (n : Nat) (s : State) :
    (entropyDraw n s).2.draws = s.draws + 1 := rfl
@[simp] theorem entropyDraw_state_entropyIn (n : Nat) (s : State) :
    (entropyDraw n s).2.entropyIn = s.entropyIn.drop n := rfl
@[simp] theorem entropyDraw_state_outcomesIn (n : Nat) (s : State) :
    (entropyDraw n s).2.outcomesIn = s.outcomesIn := rfl
@[simp] theorem entropyDraw_state_params (n : Nat) (s : State) :
    (entropyDraw n s).2.params = s.params := rfl

end Sys2Proof.Machine
end

