-- ==== Sys2Proof/Laws/Ops.lean ====
section
/-! SUPPORT. What each shared operation can do, said once: later proofs cite these instead of unfolding it. -/

namespace Sys2Proof.Machine

/-! ### Outcomes, commands, the host program -/

/-- `andThen` answers a next state exactly when both parts do. -/
theorem andThen_eq_next {r : Result} {f : State → Result} {u : State} :
    andThen r f = .next u ↔ ∃ t, r = .next t ∧ f t = .next u := by
  cases r <;> simp [andThen]

@[simp] theorem andThen_next (t : State) (f : State → Result) : andThen (.next t) f = f t := rfl

theorem startCommand_fatal {body : State → Result} {s : State} (h : s.fatal = true) :
    startCommand body s = .next s := by simp [startCommand, h]

theorem startCommand_running {body : State → Result} {s : State} (h : s.fatal = false) :
    startCommand body s = body s := by simp [startCommand, h]

/-- A command that answers a next state was either not started or ran to that state. -/
theorem startCommand_cases {body : State → Result} {s t : State} (h : startCommand body s = .next t) :
    (s.fatal = true ∧ t = s) ∨ (s.fatal = false ∧ body s = .next t) := by
  unfold startCommand at h
  split at h
  · next hf => cases h; exact .inl ⟨hf, rfl⟩
  · next hf => exact .inr ⟨by simpa using hf, h⟩

/-- The word that `placeWord` puts is the next item. -/
theorem nextItem_placeWord (s : State) (w : BusWord) : nextItem (placeWord s w) = some (.word w) := by
  have h : (s.program.take s.pos ++ List.replicate (s.pos - s.program.length) Item.reset).length = s.pos := by
    simp; omega
  simp only [nextItem, placeWord]
  rw [List.append_assoc, List.getElem?_append_right (by omega), h]
  simp

/-- `step` is the item performed, then the index (10 R27). -/
theorem step_of_nextItem {s : State} {it : Item} (h : nextItem s = some it) :
    step s = andThen (performItem it s) (fun t => .next (advancePos t)) := by
  simp [step, h]

/-- Everything a step that answers a next state can be. -/
theorem step_cases {s u : State} (h : step s = .next u) :
    (nextItem s = none ∧ u = s) ∨
    (∃ w t, nextItem s = some (.word w) ∧ exec (decodeWord w) s = .next t ∧ u = advancePos t) ∨
    (nextItem s = some .reset ∧ u = advancePos (resetEngine s)) ∨
    (∃ c, nextItem s = some (.outsideStore c) ∧ s.gstate = .uninitialized ∧
      u = advancePos { s with store := c }) := by
  unfold step at h
  split at h
  · next hn => cases h; exact .inl ⟨hn, rfl⟩
  · next it hn =>
    obtain ⟨t, ht, hu⟩ := andThen_eq_next.mp h
    cases hu
    cases it with
    | word w => exact .inr (.inl ⟨w, t, hn, ht, rfl⟩)
    | reset => cases ht; exact .inr (.inr (.inl ⟨hn, rfl⟩))
    | outsideStore c =>
      simp only [performItem, outsideStore] at ht
      split at ht
      · next hg => cases ht; exact .inr (.inr (.inr ⟨c, hn, hg, rfl⟩))
      · cases ht

/-! ### Cipher commands -/

theorem setKeyCommand_complete {s : State} (h : s.keyinMask = 0xFFFFFFFF#32) :
    setKeyCommand s = .next { s with
      ctxU := some (contextOf s.keyin), keyin := Vector.replicate 32 0x00#8, keyinMask := 0#32 } := by
  simp [setKeyCommand, State.keyComplete, h]

theorem setKeyCommand_incomplete {s : State} (h : s.keyinMask ≠ 0xFFFFFFFF#32) :
    setKeyCommand s = .next (raiseFatal .keySize s) := by
  simp [setKeyCommand, State.keyComplete, h]

theorem blockCommand_unkeyed {f : Context → Block → Block} {s : State} (h : s.ctxU = none) :
    blockCommand f s = .next (raiseFatal .notKeyed s) := by simp [blockCommand, h]

theorem blockCommand_keyed {f : Context → Block → Block} {s : State} {c : Context} (h : s.ctxU = some c) :
    blockCommand f s = .next { s with dout := f c s.din } := by simp [blockCommand, h]

/-! ### The generator -/

/-- The triple `GeneratorInit` adopts: the store's record, or the synthesised one (42 R187). -/
def initialTriple (s : State) : Triple :=
  match loadState s with
  | some t => t
  | none => (synthesize s).1

/-- `GeneratorInit` leaves the generator Ready with that triple and the cursor at 16 (42 R187). -/
theorem generatorInit_ready (s : State) : (generatorInit s).ReadyWith (initialTriple s) 16 := by
  cases h : loadState s <;> simp [generatorInit, initialTriple, State.ReadyWith, h]

/-- What `GeneratorInit` leaves unchanged: everything but the generator, the store and the inputs (42 R180). -/
theorem generatorInit_frame (s : State) :
    generatorInit s = { s with
      ctxG := (generatorInit s).ctxG, gstate := (generatorInit s).gstate, triple := (generatorInit s).triple
      cursor := (generatorInit s).cursor, seq := (generatorInit s).seq, store := (generatorInit s).store
      draws := (generatorInit s).draws, entropyIn := (generatorInit s).entropyIn
      outcomesIn := (generatorInit s).outcomesIn } := by
  unfold generatorInit
  split <;> rfl

theorem lazyInit_uninitialized {s : State} (h : s.gstate = .uninitialized) : lazyInit s = generatorInit s := by
  simp [lazyInit, h]

theorem lazyInit_started {s : State} (h : s.gstate ≠ .uninitialized) : lazyInit s = s := by
  simp [lazyInit, h]

/-- An advance of a generator that holds its values (42 R189). -/
theorem advanceBlock_some {s : State} {t : Triple} {g : Context} (ht : s.triple = some t) (hg : s.ctxG = some g) :
    ∃ t' : Triple, t'.key = t.key ∧ t'.ctr = t.ctr + 1 ∧
      t'.block = encrypt g.ek (advancePlaintext (t.ctr + 1) t.block) ∧
      advanceBlock s = .next { persist t' { s with triple := some t' } with cursor := some 0 } :=
  ⟨{ t with ctr := t.ctr + 1, block := encrypt g.ek (advancePlaintext (t.ctr + 1) t.block) }, rfl, rfl, rfl,
    by simp [advanceBlock, ht, hg]⟩

/-- An advance answers a next state only where the generator holds its values. -/
theorem advanceBlock_next {s u : State} (h : advanceBlock s = .next u) :
    ∃ t g, s.triple = some t ∧ s.ctxG = some g := by
  unfold advanceBlock at h
  split at h
  · next t g ht hg => exact ⟨t, g, ht, hg⟩
  · cases h

/-- An advance of a Ready generator is the next keystream block, persisted (42 R189, R190). -/
theorem advanceBlock_ready {s : State} {t : Triple} {c : Fin 17} (h : s.ReadyWith t c) :
    advanceBlock s = .next { s with
      triple := some (nextKeystreamBlock t)
      cursor := some 0
      store := storeAfter s.params (serializeRecord (nextKeystreamBlock t)) s.store (nextOutcome s)
      draws := s.draws + 1
      outcomesIn := s.outcomesIn.drop 1 } := by
  obtain ⟨-, ht, -, hg⟩ := h
  simp only [advanceBlock, ht, hg]
  rfl

/-- A byte is emitted only at a cursor below 16 (42 R193). -/
theorem emitByte_next {s u : State} (h : emitByte s = .next u) :
    ∃ t c, ∃ hc : c.val < 16, s.triple = some t ∧ s.cursor = some c ∧
      u = { s with byteout := t.block[c.val], cursor := some ⟨c.val + 1, by omega⟩ } := by
  unfold emitByte at h
  split at h
  · next t c ht hc =>
    split at h
    · next hlt => cases h; exact ⟨t, c, hlt, ht, hc, rfl⟩
    · cases h
  · cases h

theorem emitByte_some {s : State} {t : Triple} {c : Fin 17} (ht : s.triple = some t) (hc : s.cursor = some c)
    (hlt : c.val < 16) :
    emitByte s = .next { s with byteout := t.block[c.val], cursor := some ⟨c.val + 1, by omega⟩ } := by
  simp [emitByte, ht, hc, hlt]

/-! ### Host writes -/

/-- A write to CMD is the command with that code, in every state (20 R62, 30 R98). -/
theorem hostWrite_cmd (v : Byte) (s : State) :
    hostWrite 0x40#7 v s = startCommand (commandWithCode v) s := by
  simp [hostWrite, startCommand]

/-- A write to address 0x00 + n stores in KEYIN (10 R22). -/
theorem writeRegister_keyin {n : Nat} (h : n < 32) (v : Byte) (s : State) :
    writeRegister (BitVec.ofNat 7 n) v s = writeKeyin n h v s := by
  have hn : (BitVec.ofNat 7 n).toNat = n := by simp; omega
  have key : ∀ m hm, m = n → writeKeyin m hm v s = writeKeyin n h v s := by rintro m hm rfl; rfl
  unfold writeRegister
  simp only
  rw [dif_pos (by omega)]
  exact key _ _ hn

/-- A write to address 0x20 + n stores in DIN (10 R23). -/
theorem writeRegister_din {n : Nat} (h : n < 16) (v : Byte) (s : State) :
    writeRegister (BitVec.ofNat 7 (0x20 + n)) v s = writeDin n h v s := by
  have hn : (BitVec.ofNat 7 (0x20 + n)).toNat = 0x20 + n := by simp; omega
  have key : ∀ m hm, m = n → writeDin m hm v s = writeDin n h v s := by rintro m hm rfl; rfl
  unfold writeRegister
  simp only
  rw [dif_neg (by omega), dif_pos (by omega)]
  exact key _ _ (by omega)

/-- Any other write is ignored (20 R62). -/
theorem writeRegister_ignored {a : HostAddr} (h : 0x30 ≤ a.toNat) (v : Byte) (s : State) :
    writeRegister a v s = s := by
  simp [writeRegister, show ¬ a.toNat < 0x20 by omega, show ¬ a.toNat < 0x30 by omega]

/-- Everything a host write to an address other than CMD can do (20 R62). -/
theorem hostWrite_register {a : HostAddr} (h : a ≠ 0x40#7) (v : Byte) (s : State) :
    hostWrite a v s = .next (if s.fatal then s else writeRegister a v s) := by
  cases hf : s.fatal <;> simp [hostWrite, h, hf]

end Sys2Proof.Machine
end

