-- ==== Sys2Proof/Laws/PerInstr.lean ====
section
/-! SUPPORT. Statements about each instruction as syntax: its word lies in the row of spec/opcode_table.json that its
mnemonic names. -/

namespace Sys2Proof.Laws.TableRow

/-- The row's mask in spec/opcode_table.json. -/
def mask : Instr → BusWord
  | .setkey | .enc | .dec | .ginit | .advance | .nextbyte => 0xFFFF#16
  | .illegal _ | .isinit _ | .rdbyte _ => 0xFF00#16
  | .rd _ _ | .wr _ _ => 0x8000#16

/-- The row's match in spec/opcode_table.json. -/
def pattern : Instr → BusWord
  | .setkey => 0xC001#16
  | .enc => 0xC002#16
  | .dec => 0xC003#16
  | .ginit => 0xC010#16
  | .advance => 0xC011#16
  | .nextbyte => 0xC012#16
  | .illegal _ => 0xC000#16
  | .isinit _ => 0x4100#16
  | .rdbyte _ => 0x4200#16
  | .rd _ _ => 0x0000#16
  | .wr _ _ => 0x8000#16

/-- The encoded word matches the row of the instruction's mnemonic. -/
abbrev Statement (i : Instr) : Prop := encode i &&& mask i = pattern i

theorem setkey : Statement .setkey := by decide
theorem enc : Statement .enc := by decide
theorem dec : Statement .dec := by decide
theorem ginit : Statement .ginit := by decide
theorem advance : Statement .advance := by decide
theorem nextbyte : Statement .nextbyte := by decide
theorem illegal (op : Byte) : Statement (.illegal op) := by revert op; decide +kernel
theorem isinit (d : Byte) : Statement (.isinit d) := by revert d; decide +kernel
theorem rdbyte (d : Byte) : Statement (.rdbyte d) := by revert d; decide +kernel

/-- Bit 15 of an assembled word is its `w` field. -/
theorem busWord_bit15 (w : Bool) (a : HostAddr) (d : Byte) :
    busWord w a d &&& 0x8000#16 = if w then 0x8000#16 else 0#16 := by
  have hbit : (busWord w a d).getLsbD 15 = w := by
    unfold busWord
    rw [BitVec.getLsbD_append, BitVec.getLsbD_append]
    cases w <;> rfl
  have hmask : ∀ i < 16, (0x8000#16).getLsbD i = decide (i = 15) := by decide
  apply BitVec.eq_of_getLsbD_eq
  intro i hi
  rw [BitVec.getLsbD_and, hmask i hi]
  by_cases h : i = 15
  · subst h; rw [hbit]; cases w <;> rfl
  · cases w <;> simp [h, hmask i hi]

theorem rd (a : HostAddr) (d : Byte) : Statement (.rd a d) := busWord_bit15 false a d
theorem wr (a : HostAddr) (d : Byte) : Statement (.wr a d) := busWord_bit15 true a d

end Sys2Proof.Laws.TableRow
end

