-- ==== Sys2Proof/Tests/Slice0.lean ====
section
/-! SUPPORT. The model's own tests: expected values are the spec's (spec/95_test_vectors.md, cited by id), and a named
state that meets the hypotheses of each statement that has any. -/

namespace Sys2Proof.Tests

open Sys2Proof Sys2Proof.Machine

/-! ### Well-formedness: each check refuses an ill-formed term -/

theorem test_illegal_refuses_a_command_code : (Instr.illegal 0x12#8).wellFormed = false := by decide
theorem test_rd_refuses_status : (Instr.rd 0x41#7 0x00#8).wellFormed = false := by decide
theorem test_rd_refuses_byteout : (Instr.rd 0x42#7 0x00#8).wellFormed = false := by decide
theorem test_wr_refuses_cmd : (Instr.wr 0x40#7 0x01#8).wellFormed = false := by decide
theorem test_wr_accepts_status : (Instr.wr 0x41#7 0x01#8).wellFormed = true := by decide

/-! ### Decoding: words written out from the encoding of 30 R91 to R94 -/

/-- w = 1, a = 1000000, op = 00000001. -/
theorem test_decode_setkey : decodeWord 0b1100000000000001#16 = .setkey := by decide
theorem test_decode_enc : decodeWord 0b1100000000000010#16 = .enc := by decide
theorem test_decode_dec : decodeWord 0b1100000000000011#16 = .dec := by decide
theorem test_decode_ginit : decodeWord 0b1100000000010000#16 = .ginit := by decide
theorem test_decode_advance : decodeWord 0b1100000000010001#16 = .advance := by decide
theorem test_decode_nextbyte : decodeWord 0b1100000000010010#16 = .nextbyte := by decide
/-- T7.18. -/
theorem test_decode_illegal : decodeWord 0b1100000000001111#16 = .illegal 0x0F#8 := by decide
/-- T6.8: the d field of a read is carried and ignored. -/
theorem test_decode_isinit : decodeWord 0b0100000110101011#16 = .isinit 0xAB#8 := by decide
theorem test_decode_rdbyte : decodeWord 0b0100001000000000#16 = .rdbyte 0x00#8 := by decide
/-- T7.5. -/
theorem test_decode_rd : decodeWord 0b0111111111111111#16 = .rd 0x7F#7 0xFF#8 := by decide
/-- T7.8. -/
theorem test_decode_wr : decodeWord 0b1010000010101010#16 = .wr 0x20#7 0xAA#8 := by decide
theorem test_decode_table_word : decodeTableWord 16 0xC010 = some .ginit := by decide
/-- From bytes, high byte first (30 R91). -/
theorem test_decode_bytes : (decode [0xC0#8, 0x11#8, 0x42#8]).toOption = some (.advance, [0x42#8]) := by decide
theorem test_decode_half_word : (decode [0xC0#8]).toOption = none := by decide

/-! ### Small states -/

/-- Key K01. -/
def k01 : Key := bytesOfNat 32 0x000102030405060708090a0b0c0d0e0f101112131415161718191a1b1c1d1e1f

/-- Key KA. -/
def kA : Key := bytesOfNat 32 0x603deb1015ca71be2b73aef0857d77811f352c073b6108d72d9810a30914dff4

/-- Block P01. -/
def p01 : Block := bytesOfNat 16 0x00112233445566778899aabbccddeeff

/-- The triple of REC0: K01, 0, sixteen zero bytes. -/
def rec0 : Triple where
  key := k01
  ctr := 0#128
  block := bytesOfNat 16 0

/-- A generator that is Ready with REC0 and a given cursor, its store in agreement, two writes going to succeed. -/
def readyAt (c : Fin 17) : State :=
  { State.reset with
    gstate := .ready, triple := some rec0, cursor := some c, ctxG := some (contextOf k01)
    store := some (serializeRecord rec0), outcomesIn := [.ok, .ok] }

/-- Context U keyed with K01, P01 in DIN. -/
def keyedK01 : State := { State.reset with ctxU := some (contextOf k01), din := p01 }

/-- One part of the next state, if there is one. -/
def after {α : Type} (r : Result) (f : State → α) : Option α :=
  match r with
  | .next s => some (f s)
  | _ => none

/-! ### The cipher's parts -/

/-- T1.3, T1.7, T1.8, T1.15, T1.19. -/
theorem test_field : xTime 0x57#8 = 0xAE#8 ∧ xTime 0xFF#8 = 0xE5#8 ∧ gMul 0x57#8 0x83#8 = 0xC1#8 ∧
    gMul 0xFF#8 0xFF#8 = 0x13#8 ∧ gInv 0x53#8 = 0xCA#8 := by decide +kernel

/-- T1.21, T1.24, T1.27, T1.31, T1.34. -/
theorem test_sbox : sBox 0x00#8 = 0x63#8 ∧ sBox 0x53#8 = 0xED#8 ∧ sBox 0xCA#8 = 0x74#8 ∧
    invSBox 0x63#8 = 0x00#8 ∧ invSBox 0xFF#8 = 0x7D#8 := by decide +kernel

/-- T2.1, T2.2. -/
theorem test_shift_rows :
    shiftRows (bytesOfNat 16 0x000102030405060708090a0b0c0d0e0f)
      = bytesOfNat 16 0x00050a0f04090e03080d02070c01060b ∧
    invShiftRows (bytesOfNat 16 0x000102030405060708090a0b0c0d0e0f)
      = bytesOfNat 16 0x000d0a0704010e0b0805020f0c090603 := by decide +kernel

/-- T2.6, T2.5. -/
theorem test_mix_columns :
    mixColumns (bytesOfNat 16 0xd4bf5d30e0b452aeb84111f11e2798e5)
      = bytesOfNat 16 0x046681e5e0cb199a48f8d37a2806264c ∧
    invMixColumns (bytesOfNat 16 0x8e4da1bc9fdc589d01010101c6c6c6c6)
      = bytesOfNat 16 0xdb135345f20a225c01010101c6c6c6c6 := by decide +kernel

/-- FK2: the last round key for KA is w[56..59]. -/
theorem test_key_schedule :
    (keySchedule kA)[14] = bytesOfNat 16 0xfe4890d1e6188d0b046df344706c631e := by decide +kernel

/-! ### The counter and the record -/

/-- T5.9. -/
theorem test_counter_bytes :
    ctrBytes 0x0102030405060708090a0b0c0d0e0f10#128 = bytesOfNat 16 0x100f0e0d0c0b0a090807060504030201 ∧
    ctrFromBytes (bytesOfNat 16 0x100f0e0d0c0b0a090807060504030201)
      = 0x0102030405060708090a0b0c0d0e0f10#128 := by decide +kernel

/-- T5.11: 63 and 65 bytes are invalid, 64 bytes of 0xFF are the record (KF, 2^128 - 1, ff^16). -/
theorem test_parse_record :
    parseRecord Params.default (some (List.replicate 63 0x00#8)) = none ∧
    parseRecord Params.default (some (List.replicate 65 0x00#8)) = none ∧
    (parseRecord Params.default (some (List.replicate 64 0xFF#8))).map (·.ctr) = some (BitVec.allOnes 128) := by
  decide +kernel

/-! ### Commands -/

/-- T8.9: 31 key bytes are not enough; the mask keeps its value, STATUS reads 0x22. -/
theorem test_setkey_incomplete :
    after (exec .setkey { State.reset with keyinMask := 0x7FFFFFFF#32 }) (fun s => (statusByte s, s.keyinMask))
      = some (0x22#8, 0x7FFFFFFF#32) := by decide

/-- T8.1: SETKEY with K01 sets KEYED and clears the mask; ekU[2] is that of 41 R161. -/
theorem test_setkey_complete :
    after (exec .setkey { State.reset with keyin := k01, keyinMask := 0xFFFFFFFF#32 })
        (fun s => (statusByte s, s.keyinMask, s.keyin[31], s.ctxU.map (·.ek[2])))
      = some (0x01#8, 0#32, 0x00#8, some (bytesOfNat 16 0xa573c29fa176c498a97fce93a572c09c)) := by decide +kernel

/-- T8.6: ENC before any SETKEY. -/
theorem test_enc_unkeyed : after (exec .enc State.reset) statusByte = some 0x12#8 := by decide

/-- T8.1. -/
theorem test_enc_keyed :
    after (exec .enc keyedK01) (·.dout) = some (bytesOfNat 16 0x8ea2b7ca516745bfeafc49904b496089) := by
  decide +kernel

/-- T8.7: DEC before any SETKEY. -/
theorem test_dec_unkeyed : after (exec .dec State.reset) statusByte = some 0x12#8 := by decide

/-- T8.3: DEC of P01 under K01. -/
theorem test_dec_keyed :
    after (exec .dec keyedK01) (·.dout) = some (bytesOfNat 16 0xeab487e68ec92db4ac288a24757b0262) := by
  decide +kernel

/-- T11.3: an unknown command; KEYED, FATAL and CAUSE in STATUS as in T11.8. -/
theorem test_illegal : after (exec (.illegal 0x7F#8) keyedK01) statusByte = some 0x33#8 := by decide

/-- S2: a GINIT with REC0 in the store makes no draw and no write. -/
theorem test_ginit_loads :
    after (exec .ginit { State.reset with store := some (serializeRecord rec0) })
        (fun s => (s.gstate, s.triple.map (·.ctr), s.cursor, s.seq, s.draws))
      = some (.ready, some 0#128, some 16, 0#64, 0) := by decide +kernel

/-- S14 with the answers of V8: the counter of the second draw, three draws, the failed write leaves the store
absent. -/
theorem test_ginit_synthesises :
    after (exec .ginit { State.reset with
        entropyIn := kA.toList ++ (bytesOfNat 16 0xf0f1f2f3f4f5f6f7f8f9fafbfcfdfeff).toList
          ++ (bytesOfNat 16 0x6bc1bee22e409f96e93d7e117393172a).toList
        outcomesIn := [.failKept] })
        (fun s => (s.triple.map (·.ctr), s.cursor, s.seq, s.store.isNone))
      = some (some 0xfffefdfcfbfaf9f8f7f6f5f4f3f2f1f0#128, some 16, 3#64, true) := by decide +kernel

/-- V1, S4: one advance from REC0. -/
theorem test_advance :
    after (exec .advance (readyAt 5)) (fun s => (s.triple, s.cursor))
      = some (some { key := k01, ctr := 1#128, block := bytesOfNat 16 0xc7b519846a11411cd6ac07cb03f801a8 },
          some 0) := by decide +kernel

/-- S6: a NEXTBYTE below cursor 16 reads the block and makes no write (block of V1 advance 1, cursor 3). -/
theorem test_nextbyte_in_the_block :
    after (exec .nextbyte { readyAt 3 with
        triple := some { rec0 with block := bytesOfNat 16 0xc7b519846a11411cd6ac07cb03f801a8 } })
        (fun s => (s.byteout, s.cursor, s.draws)) = some (0x84#8, some 4, 0) := by decide +kernel

/-- S1: the first NEXTBYTE after initialisation advances. -/
theorem test_nextbyte_advances :
    after (exec .nextbyte (readyAt 16)) (fun s => (s.byteout, s.cursor, s.triple.map (·.ctr)))
      = some (0xC7#8, some 1, some 1#128) := by decide +kernel

/-! ### Reads and writes -/

/-- T6.1: KEYIN is not readable. -/
theorem test_rd_keyin : after (exec (.rd 0x05#7 0x00#8) { State.reset with keyin := k01 }) (·.returned)
    = some [0x00#8] := by decide +kernel

/-- The last byte of DOUT, and a read does not depend on its d field (30 R91). -/
theorem test_rd_dout : after (exec (.rd 0x3F#7 0xAB#8) { State.reset with dout := p01 }) (·.returned)
    = some [0xFF#8] := by decide +kernel

/-- T11.1: ISINIT after an illegal command. -/
theorem test_isinit :
    after (exec (.isinit 0x00#8) { State.reset with fatal := true, cause := 3#4 }) (·.returned)
      = some [0x32#8] := by decide

/-- T11.7: BYTEOUT is read in the fatal state. -/
theorem test_rdbyte :
    after (exec (.rdbyte 0x00#8) { State.reset with byteout := 0xC7#8, fatal := true, cause := 1#4 }) (·.returned)
      = some [0xC7#8] := by decide

/-- T6.9: two writes to KEYIN[0] leave one bit of the mask. -/
theorem test_wr_keyin :
    after (andThen (exec (.wr 0x00#7 0x11#8) State.reset) (exec (.wr 0x00#7 0x22#8)))
        (fun s => (s.keyin[0], s.keyinMask)) = some (0x22#8, 1#32) := by decide +kernel

/-- T11.6: in the fatal state a write stores nothing. -/
theorem test_wr_fatal :
    after (exec (.wr 0x20#7 0xAA#8) { State.reset with fatal := true, cause := 1#4 }) (·.din[0])
      = some 0x00#8 := by decide +kernel

/-! ### The step -/

/-- T11.9: RESET clears the fault and keeps the store. -/
theorem test_step_reset :
    after (step { readyAt 4 with fatal := true, cause := 1#4, program := [.reset] })
        (fun s => (statusByte s, s.gstate, s.store, s.pos))
      = some (0x00#8, .uninitialized, some (serializeRecord rec0), 1) := by decide +kernel

/-- A placed word is the one that the next step runs. -/
theorem test_step_runs_the_placed_word :
    after (step (State.reset.withFetchWord 16 0xC000)) (fun s => (statusByte s, s.pos)) = some (0x32#8, 1) := by
  decide

/-! ### Witnesses: states and operands that meet the hypotheses of the statements -/

theorem ready_readyAt (c : Fin 17) : (readyAt c).ReadyWith rec0 c := ⟨rfl, rfl, rfl, rfl⟩

theorem readyAt_inv (c : Fin 17) : (readyAt c).Inv where
  generator := .inr ⟨rec0, c, ready_readyAt c, (by decide : 0#64 ≤ 3#64)⟩
  contextU g hg := by cases hg
  cause := ⟨fun _ => rfl, fun _ => rfl⟩
  causeCodes := (by decide : 0#4 ≤ 3#4)

theorem readyAt_inSync (c : Fin 17) : (readyAt c).InSync := fun _ => ⟨rec0, rfl, rfl⟩

/-- The record of REC0 parses: the store of `readyAt` holds it. -/
theorem parse_rec0 : parseRecord Params.default (some (serializeRecord rec0)) = some rec0 := by decide +kernel

theorem witness_DecodeOfEncode : (Instr.wr 0x7F#7 0xFF#8).wellFormed = true := by decide
theorem witness_EveryWordIsOneInstruction :
    (Instr.isinit 0xAB#8).wellFormed = true ∧ encode (.isinit 0xAB#8) = 0x41AB#16 := by decide
theorem witness_DecodeFollowsTheTable_write : (0x41#7 : HostAddr) ≠ 0x40#7 := by decide
theorem witness_DecodeReadsTheHighByteFirst : (Instr.illegal 0x00#8).wellFormed = true := by decide

theorem witness_StepRunsTheDecodedInstruction :
    Instr.ginit.wellFormed = true ∧
    ({ State.reset with program := [.word 0xC010#16] } : State).program[0]? = some (.word (encode .ginit)) := by
  decide

theorem witness_ThePositionCountsItems_exec : ∃ t, exec (.rd 0x00#7 0x00#8) State.reset = .next t := ⟨_, rfl⟩
theorem witness_ThePositionCountsItems_step :
    ∃ s u : State, s.pos < s.program.length ∧ step s = .next u :=
  ⟨{ State.reset with program := [.reset] }, _, by decide, rfl⟩
theorem witness_ThePositionCountsItems_end : State.reset.program.length ≤ State.reset.pos := by decide
theorem witness_StepKeepsTheParameters : ∃ u, step State.reset = .next u := ⟨_, rfl⟩

theorem witness_ResetLeavesTheStatedValues :
    ({ readyAt 4 with fatal := true, program := [.reset] } : State).program[0]? = some .reset := rfl
theorem witness_InvariantAfterReset : State.reset.AsReset := by constructor <;> rfl
theorem witness_StepKeepsTheInvariant :
    ∃ s u : State, s.Inv ∧ nextItem s = some (.word 0xC012#16) ∧ step s = .next u := by
  refine ⟨{ readyAt 3 with program := [.word 0xC012#16] }, _, ?_, rfl, rfl⟩
  exact ⟨(readyAt_inv 3).generator, (readyAt_inv 3).contextU, (readyAt_inv 3).cause, (readyAt_inv 3).causeCodes⟩
theorem witness_NoInstructionStopsAtABoundary : (readyAt 16).Inv := readyAt_inv 16

theorem witness_NoValueIsNeverRead :
    ∃ s : State, s.fatal = false ∧ s.gstate ≠ .uninitialized ∧ (s.triple = none ∨ s.ctxG = none) ∧
      (s.triple = none ∨ s.cursor = none ∨ (s.cursor = some 16 ∧ s.ctxG = none)) :=
  ⟨{ State.reset with gstate := .loaded, triple := some rec0 }, rfl, by decide, .inr rfl, .inr (.inl rfl)⟩
/-- A triple and cursor 16, but no context G. -/
theorem witness_NoValueIsNeverRead_cursor16 :
    exec .nextbyte { readyAt 16 with ctxG := none } = .fault .noValue := rfl
/-- All values held: it runs, although the generator is not Ready. -/
theorem witness_NoValueIsNeverRead_loaded :
    ∃ t, exec .advance { readyAt 16 with gstate := .loaded } = .next t := ⟨_, rfl⟩

theorem witness_OutsideAgent_before :
    ∃ s : State, s.program[s.pos]? = some (.outsideStore none) ∧ s.gstate = .uninitialized :=
  ⟨{ State.reset with program := [.outsideStore none] }, rfl, rfl⟩
theorem witness_OutsideAgent_after :
    ∃ s : State, s.program[s.pos]? = some (.outsideStore none) ∧ s.gstate ≠ .uninitialized :=
  ⟨{ readyAt 0 with program := [.outsideStore none] }, rfl, by decide⟩

theorem witness_HostWriteTable_fatal : ({ State.reset with fatal := true } : State).fatal = true := rfl
theorem witness_HostWriteTable_running : State.reset.fatal = false := rfl
/-- The lowest ignored address, the neighbours of CMD, and the highest address. -/
theorem witness_HostWriteTable_ignored :
    ∀ a ∈ ([0x30#7, 0x3F#7, 0x41#7, 0x7F#7] : List HostAddr), 0x30 ≤ a.toNat ∧ a ≠ 0x40#7 := by decide

theorem witness_SBoxIsTheAffineInverse : (0x01#8 : Byte) ≠ 0x00#8 := by decide

theorem witness_SetkeyKeysContextU_complete :
    ∃ s : State, s.fatal = false ∧ s.keyinMask = 0xFFFFFFFF#32 :=
  ⟨{ State.reset with keyinMask := 0xFFFFFFFF#32 }, rfl, rfl⟩
theorem witness_SetkeyKeysContextU_incomplete :
    ∃ s : State, s.fatal = false ∧ s.keyinMask ≠ 0xFFFFFFFF#32 :=
  ⟨{ State.reset with keyinMask := 0x7FFFFFFF#32 }, rfl, by decide⟩
theorem witness_EncAndDec_keyed : ∃ g, keyedK01.fatal = false ∧ keyedK01.ctxU = some g := ⟨_, rfl, rfl⟩
theorem witness_EncAndDec_unkeyed : State.reset.fatal = false ∧ State.reset.keyedU = false := by decide
theorem witness_EncAndDecUndoEachOther :
    keyedK01.fatal = false ∧ keyedK01.ctxU = some (contextOf k01) := ⟨rfl, rfl⟩
theorem witness_KeyBytesInAnyOrder_all :
    State.reset.fatal = false ∧ ∀ i : Fin 32, i ∈ (List.finRange 32).reverse := by
  exact ⟨rfl, by simp⟩
theorem witness_KeyBytesInAnyOrder_missing :
    State.reset.fatal = false ∧ State.reset.keyinMask = 0#32 ∧ ∃ i : Fin 32, i ∉ [0, 1, 5, 5] :=
  ⟨rfl, rfl, 2, by decide⟩
theorem witness_UnknownCommandIsFatal :
    ∀ op ∈ ([0x00#8, 0x04#8, 0x0F#8, 0x13#8, 0xFF#8] : List Byte),
      op ∉ [0x01#8, 0x02#8, 0x03#8, 0x10#8, 0x11#8, 0x12#8] := by decide

theorem witness_FaultTable_notKeyed :
    ∃ t, Instr.dec.wellFormed = true ∧ State.reset.fatal = false ∧ exec .dec State.reset = .next t ∧
      State.reset.keyedU = false := ⟨_, rfl, rfl, rfl, rfl⟩
theorem witness_FaultTable_keySize :
    ∃ t, State.reset.fatal = false ∧ exec .setkey State.reset = .next t ∧ State.reset.keyinMask ≠ 0xFFFFFFFF#32 :=
  ⟨_, rfl, rfl, by decide⟩
theorem witness_FaultTable_illegal :
    ∃ t, (Instr.illegal 0x00#8).wellFormed = true ∧ exec (.illegal 0x00#8) State.reset = .next t :=
  ⟨_, by decide, rfl⟩
theorem witness_FaultTable_none : ∃ t, exec .enc keyedK01 = .next t ∧ keyedK01.keyedU = true := ⟨_, rfl, rfl⟩
theorem witness_FatalState :
    ∃ s u : State, s.fatal = true ∧ nextItem s = some (.word 0xC002#16) ∧ step s = .next u :=
  ⟨{ State.reset with fatal := true, cause := 1#4, program := [.word 0xC002#16] }, _, rfl, rfl, rfl⟩
theorem witness_FatalState_reset :
    ∃ s u : State, s.fatal = true ∧ nextItem s = some .reset ∧ step s = .next u :=
  ⟨{ State.reset with fatal := true, cause := 1#4, program := [.reset] }, _, rfl, rfl, rfl⟩
theorem witness_FatalStateIsFrozen :
    (Instr.wr 0x00#7 0x11#8).isRead = false ∧ (Instr.setkey).isRead = false := by decide

theorem witness_ParseRecord_some : ∃ p c t, parseRecord p c = some t := ⟨_, _, _, parse_rec0⟩
theorem witness_ParseRecord_length : (List.replicate 65 (0x00#8 : Byte)).length ≠ 64 := by decide
theorem witness_StoreWrite_ok : nextOutcome (readyAt 0) = .ok := rfl
theorem witness_StoreWrite_failKept : nextOutcome { State.reset with outcomesIn := [.failKept] } = .failKept := rfl
theorem witness_StoreWrite_failLost :
    nextOutcome { State.reset with outcomesIn := [.failLost] } = .failLost ∧
      State.reset.params.persistFailCorrupts = false := ⟨rfl, rfl⟩
theorem witness_StoreWrite_failCorrupts : ∃ s : State, nextOutcome s = .failLost ∧
    s.params.persistFailCorrupts = true :=
  ⟨{ State.reset with outcomesIn := [.failLost], params := { Params.default with persistFailCorrupts := true } },
    rfl, rfl⟩

theorem witness_GinitAdoptsTheRecord :
    ∃ (s : State) (t : Triple), s.fatal = false ∧ s.gstate = .uninitialized ∧
      parseRecord s.params s.store = some t :=
  ⟨{ State.reset with store := some (serializeRecord rec0) }, rec0, rfl, rfl, parse_rec0⟩
theorem witness_GinitSynthesisesFreshState :
    State.reset.fatal = false ∧ State.reset.gstate = .uninitialized ∧
      parseRecord State.reset.params State.reset.store = none := ⟨rfl, rfl, rfl⟩
theorem witness_GinitWhenInitialisedHasNoEffect : (readyAt 4).gstate ≠ .uninitialized := by decide
theorem witness_FirstCommandInitialises_fatal :
    ({ State.reset with fatal := true } : State).fatal = true ∧ Instr.advance.isGenerator = true := ⟨rfl, rfl⟩
theorem witness_FirstCommandInitialises :
    State.reset.fatal = false ∧ State.reset.gstate = .uninitialized := ⟨rfl, rfl⟩
/-- For the statements about a Ready generator: the cursor at both ends of its range and in between. -/
theorem witness_Ready (c : Fin 17) : (readyAt c).fatal = false ∧ (readyAt c).ReadyWith rec0 c :=
  ⟨rfl, ready_readyAt c⟩
theorem witness_OnlyAnAdvanceChangesTheTriple :
    ∃ u, Instr.nextbyte.wellFormed = true ∧ (readyAt 16).ReadyWith rec0 16 ∧ exec .nextbyte (readyAt 16) = .next u :=
  ⟨_, rfl, ready_readyAt 16, rfl⟩
theorem witness_CounterLaw_frame :
    ∃ u, (readyAt 3).ReadyWith rec0 3 ∧ exec .nextbyte (readyAt 3) = .next u ∧
      ¬ (Instr.nextbyte = .nextbyte ∧ (3 : Fin 17) = 16) := ⟨_, ready_readyAt 3, rfl, by decide⟩
theorem witness_CounterLaw_carry :
    ctrLow 0x0000000000000000ffffffffffffffff#128 = 0xFFFFFFFFFFFFFFFF#64 ∧
    ctrLow 0x0000000000000000fffffffffffffffe#128 ≠ 0xFFFFFFFFFFFFFFFF#64 := by decide
/-- Two engines that differ in the store, the outcomes, `seq`, BYTEOUT and context U. -/
theorem witness_KeystreamIsDeterministic :
    ∃ s s' : State, s ≠ s' ∧ s.fatal = false ∧ s'.fatal = false ∧ s.ReadyWith rec0 16 ∧ s'.ReadyWith rec0 16 ∧
      s.byteout ≠ s'.byteout ∧ .nextbyte ∈ [Instr.nextbyte, .ginit, .advance] ∧
      ∀ i ∈ [Instr.nextbyte, .ginit, .advance], i.isGenerator = true :=
  ⟨readyAt 16, { readyAt 16 with store := none, outcomesIn := [.failKept], seq := 3#64, byteout := 1#8 },
    fun h => (nomatch congrArg State.store h), rfl, rfl, ready_readyAt 16, ⟨rfl, rfl, rfl, rfl⟩, by decide, by decide,
    by decide⟩
/-- Other instructions between the same generator commands. -/
theorem witness_KeystreamIsDeterministic_between :
    ∃ u u', (∀ i ∈ [Instr.ginit, .wr 0x20#7 0x01#8, .nextbyte] ++ [.ginit, .nextbyte, .rdbyte 0x00#8],
        i.wellFormed = true) ∧
      [Instr.ginit, .wr 0x20#7 0x01#8, .nextbyte].filter Instr.isGenerator
        = [Instr.ginit, .nextbyte, .rdbyte 0x00#8].filter Instr.isGenerator ∧
      execAll [.ginit, .wr 0x20#7 0x01#8, .nextbyte] (readyAt 3) = .next u ∧
      execAll [.ginit, .nextbyte, .rdbyte 0x00#8] (readyAt 3) = .next u' ∧ u.fatal = false ∧ u'.fatal = false :=
  ⟨_, _, by decide, by decide, rfl, rfl, rfl, rfl⟩
theorem witness_ResumeRepeatsTheBlock :
    parseRecord (readyAt 7).params (readyAt 7).store = some rec0 := parse_rec0
theorem witness_FailedWriteThenResetReplays :
    ∃ s : State, s.fatal = false ∧ s.ReadyWith rec0 7 ∧ parseRecord s.params s.store = some rec0 ∧
      nextOutcome s = .failKept :=
  ⟨{ readyAt 7 with outcomesIn := [.failKept] }, rfl, ⟨rfl, rfl, rfl, rfl⟩, parse_rec0, rfl⟩
theorem witness_FailedWriteThenResetReplays_lost :
    ∃ s : State, s.fatal = false ∧ s.ReadyWith rec0 7 ∧ parseRecord s.params s.store = some rec0 ∧
      nextOutcome s = .failLost ∧ s.params.persistFailCorrupts = false :=
  ⟨{ readyAt 7 with outcomesIn := [.failLost] }, rfl, ⟨rfl, rfl, rfl, rfl⟩, parse_rec0, rfl, rfl⟩
/-- One write, its outcome ok and the next one lined up a failure. -/
theorem witness_StoreStaysInSync :
    ∃ s u : State, s.Inv ∧ s.InSync ∧ s.writeOutcomes .advance = [.ok] ∧ s.outcomesIn = [.ok, .failKept] ∧
      nextItem s = some (.word 0xC011#16) ∧ step s = .next u := by
  refine ⟨{ readyAt 3 with program := [.word 0xC011#16], outcomesIn := [.ok, .failKept] }, _, ?_,
    fun _ => ⟨rec0, rfl, rfl⟩, rfl, rfl, rfl, rfl⟩
  exact ⟨(readyAt_inv 3).generator, (readyAt_inv 3).contextU, (readyAt_inv 3).cause, (readyAt_inv 3).causeCodes⟩
/-- No write, and no outcome lined up. -/
theorem witness_StoreStaysInSync_noWrite :
    ({ readyAt 3 with outcomesIn := [] } : State).writeOutcomes .nextbyte = [] ∧
      ({ readyAt 16 with outcomesIn := [] } : State).writeOutcomes (.rd 0x41#7 0x00#8) = [] := ⟨rfl, rfl⟩
/-- Two writes: a fresh synthesis, and the advance of a first NEXTBYTE. -/
theorem witness_StoreStaysInSync_twoWrites :
    ({ State.reset with outcomesIn := [.ok, .failKept] } : State).writeOutcomes .nextbyte = [.ok, .failKept] := rfl
theorem witness_WriteOutcomesAreTheOnesTaken :
    ∃ t, Instr.nextbyte.wellFormed = true ∧ (readyAt 16).Inv ∧ exec .nextbyte (readyAt 16) = .next t ∧
      (readyAt 16).writeOutcomes .nextbyte = [.ok] := ⟨_, rfl, readyAt_inv 16, rfl, rfl⟩
theorem witness_CleanRestartContinues :
    (readyAt 9).ReadyWith rec0 9 ∧ (readyAt 9).InSync ∧ recordConsistent (readyAt 9).params rec0 = true :=
  ⟨ready_readyAt 9, readyAt_inSync 9, rfl⟩
theorem witness_CommandFrames : ∃ t u, exec .ginit State.reset = .next t ∧ exec .enc keyedK01 = .next u :=
  ⟨_, _, rfl, rfl⟩
theorem witness_WhoWritesEachRegister :
    ∃ t, (Instr.wr 0x20#7 0xAA#8).wellFormed = true ∧ exec (.wr 0x20#7 0xAA#8) State.reset = .next t ∧
      t.din ≠ State.reset.din := ⟨_, by decide, rfl, by decide +kernel⟩
/-- The highest addresses of KEYIN and DIN, and one instruction for each of the other registers. -/
theorem witness_WhoWritesEachRegister_keyin :
    after (exec (.wr 0x1F#7 0x01#8) State.reset) (fun t => (decide (t.keyin = State.reset.keyin), t.keyinMask))
      = some (false, 0x80000000#32) := by decide +kernel
theorem witness_WhoWritesEachRegister_din :
    after (exec (.wr 0x2F#7 0x01#8) State.reset) (fun t => decide (t.din = State.reset.din)) = some false := by
  decide +kernel
theorem witness_WhoWritesEachRegister_dout :
    after (exec .enc keyedK01) (fun t => decide (t.dout = keyedK01.dout)) = some false := by decide +kernel
theorem witness_WhoWritesEachRegister_byteout_store :
    after (exec .nextbyte (readyAt 16)) (fun t => (t.byteout == 0x00#8, t.store == (readyAt 16).store))
      = some (false, false) := by decide +kernel
theorem witness_WhoWritesEachRegister_returned :
    after (exec (.rd 0x7F#7 0x00#8) State.reset) (·.returned) = some [0x00#8] := by decide
theorem witness_RdbyteReturnsByteout :
    ∃ t, (Instr.wr 0x42#7 0x01#8).wellFormed = true ∧ Instr.wr 0x42#7 0x01#8 ≠ .nextbyte ∧
      exec (.wr 0x42#7 0x01#8) State.reset = .next t := ⟨_, by decide, by decide, rfl⟩
theorem witness_KeyedFlags_setkey :
    ∃ s t, s.fatal = false ∧ s.keyinMask = 0xFFFFFFFF#32 ∧ exec .setkey s = .next t ∧ t.keyedU = true :=
  ⟨{ State.reset with keyinMask := 0xFFFFFFFF#32 }, _, rfl, rfl, rfl, rfl⟩
theorem witness_KeyedFlags :
    ∃ t, Instr.advance.wellFormed = true ∧ exec .advance State.reset = .next t := ⟨_, rfl, rfl⟩
/-- Two states the host cannot tell apart, with different generators. -/
theorem witness_OnlyNextbyteReveals :
    ∃ t t', State.reset.SameHostView (readyAt 3) ∧ execAll [.advance, .rd 0x30#7 0x00#8] State.reset = .next t ∧
      execAll [.advance, .rd 0x30#7 0x00#8] (readyAt 3) = .next t' ∧
      ∀ i ∈ [Instr.advance, .rd 0x30#7 0x00#8], i.wellFormed = true ∧ i ≠ .nextbyte :=
  ⟨_, _, by constructor <;> rfl, rfl, rfl, by decide⟩
/-- A read of BYTEOUT, and RESET, with different generators. -/
theorem witness_EveryOtherStepKeepsTheHostView :
    ∀ it ∈ [Item.word 0x4200#16, .reset], ∃ s s' u u' : State, s.SameHostView s' ∧
      s.program[s.pos]? = some it ∧ s'.program[s'.pos]? = some it ∧ it ≠ .word 0xC012#16 ∧
      step s = .next u ∧ step s' = .next u' := by
  intro it hit
  refine ⟨{ State.reset with program := [it] }, { readyAt 3 with program := [it] }, ?_⟩
  fin_cases hit
  · exact ⟨_, _, by constructor <;> rfl, rfl, rfl, by decide, rfl, rfl⟩
  · exact ⟨_, _, by constructor <;> rfl, rfl, rfl, by decide, rfl, rfl⟩

end Sys2Proof.Tests
end

section
/-! PROOFS. The statements about the state, the step and the host's view (spec/10_state.md): first the decoder on
assembled words, then what each instruction can do (`exec_generator_cases`, `Effect`), then the statements, each from
those cases. -/

namespace Sys2Proof

/-! ### The decoder on assembled words -/

/-- A bit of an assembled word is a bit of one of its fields (30 R91). -/
theorem busWord_getLsbD (w : Bool) (a : HostAddr) (d : Byte) (i : Nat) :
    (busWord w a d).getLsbD i =
      if i < 8 then d.getLsbD i else if i - 8 < 7 then a.getLsbD (i - 8)
      else (BitVec.ofBool w).getLsbD (i - 8 - 7) := by
  simp only [busWord, BitVec.getLsbD_append]

/-- A BUS16 word is made of its three fields (30 R91). -/
theorem busWord_of_fields (t : BusWord) :
    busWord (t.getLsbD 15) (t.extractLsb' 8 7) (t.extractLsb' 0 8) = t := by
  apply BitVec.eq_of_getLsbD_eq
  intro i hi
  simp only [busWord_getLsbD, BitVec.getLsbD_extractLsb', BitVec.getLsbD_ofBool]
  by_cases h8 : i < 8
  · simp [h8]
  · by_cases h15 : i - 8 < 7
    · simp [h8, h15, show 8 + (i - 8) = i by omega]
    · simp [show i = 15 by omega]

theorem busWord_write_field (w : Bool) (a : HostAddr) (d : Byte) : (busWord w a d).getLsbD 15 = w := by
  simp only [busWord_getLsbD]
  simp

theorem busWord_address_field (w : Bool) (a : HostAddr) (d : Byte) : (busWord w a d).extractLsb' 8 7 = a := by
  apply BitVec.eq_of_getLsbD_eq
  intro i hi
  simp only [BitVec.getLsbD_extractLsb', busWord_getLsbD]
  simp [hi]

theorem busWord_data_field (w : Bool) (a : HostAddr) (d : Byte) : (busWord w a d).extractLsb' 0 8 = d := by
  apply BitVec.eq_of_getLsbD_eq
  intro i hi
  simp only [BitVec.getLsbD_extractLsb', busWord_getLsbD]
  simp [hi]

/-- A word with `w = 0` is a read (30 R94). -/
theorem decodeWord_read (a : HostAddr) (d : Byte) : decodeWord (busWord false a d) = decodeRead a d := by
  simp only [decodeWord, busWord_write_field, busWord_address_field, busWord_data_field, if_true]

/-- A word with `w = 1` is a write, or a command at the address of CMD (30 R94). -/
theorem decodeWord_write (a : HostAddr) (d : Byte) :
    decodeWord (busWord true a d) = if a = 0x40#7 then decodeCommand d else .wr a d := by
  simp [decodeWord, busWord_write_field, busWord_address_field, busWord_data_field]

theorem decodeWord_cmd (op : Byte) : decodeWord (busWord true 0x40#7 op) = decodeCommand op := by
  simp [decodeWord_write]

theorem encode_decodeRead (a : HostAddr) (d : Byte) : encode (decodeRead a d) = busWord false a d := by
  unfold decodeRead
  split_ifs with h1 h2
  · rw [h1]; rfl
  · rw [h2]; rfl
  · rfl

/-- What `decodeCommand` answers: ILLEGAL with a byte that is no code, or one of the six commands at its code (30 R93,
R96). -/
theorem decodeCommand_cases (op : Byte) :
    (op ∉ commandCodes ∧ decodeCommand op = .illegal op) ∨
    (op = 0x01#8 ∧ decodeCommand op = .setkey) ∨ (op = 0x02#8 ∧ decodeCommand op = .enc) ∨
    (op = 0x03#8 ∧ decodeCommand op = .dec) ∨ (op = 0x10#8 ∧ decodeCommand op = .ginit) ∨
    (op = 0x11#8 ∧ decodeCommand op = .advance) ∨ (op = 0x12#8 ∧ decodeCommand op = .nextbyte) := by
  unfold decodeCommand
  split_ifs <;> simp_all [commandCodes]

theorem encode_decodeCommand (op : Byte) : encode (decodeCommand op) = busWord true 0x40#7 op := by
  rcases decodeCommand_cases op with
    ⟨-, h⟩ | ⟨rfl, h⟩ | ⟨rfl, h⟩ | ⟨rfl, h⟩ | ⟨rfl, h⟩ | ⟨rfl, h⟩ | ⟨rfl, h⟩ <;> rw [h] <;> rfl

theorem decodeCommand_wellFormed (op : Byte) : (decodeCommand op).wellFormed = true := by
  rcases decodeCommand_cases op with ⟨hop, h⟩ | ⟨-, h⟩ | ⟨-, h⟩ | ⟨-, h⟩ | ⟨-, h⟩ | ⟨-, h⟩ | ⟨-, h⟩ <;> rw [h]
  · simpa [Instr.wellFormed] using hop
  all_goals rfl

theorem decodeRead_wellFormed (a : HostAddr) (d : Byte) : (decodeRead a d).wellFormed = true := by
  unfold decodeRead
  split_ifs with h1 h2
  · rfl
  · rfl
  · simp [Instr.wellFormed, h1, h2]

/-- Every word decodes to an instruction that stands for a word (30 R94). -/
theorem decodeWord_wellFormed (w : BusWord) : (decodeWord w).wellFormed = true := by
  rw [← busWord_of_fields w]
  cases w.getLsbD 15
  · rw [decodeWord_read]; exact decodeRead_wellFormed _ _
  · rw [decodeWord_write]
    split_ifs with h
    · exact decodeCommand_wellFormed _
    · simp [Instr.wellFormed, h]

/-- No word loses a bit in the decoder (log entry 8). -/
theorem encode_decodeWord (w : BusWord) : encode (decodeWord w) = w := by
  rw [← busWord_of_fields w]
  cases w.getLsbD 15
  · rw [decodeWord_read, encode_decodeRead]
  · rw [decodeWord_write]
    split_ifs with h
    · rw [h, encode_decodeCommand]
    · rfl

/-- The word of a well-formed instruction decodes to it. -/
theorem decodeWord_encode {i : Instr} (h : i.wellFormed = true) : decodeWord (encode i) = i := by
  cases i with
  | setkey => exact decodeWord_cmd 0x01#8
  | enc => exact decodeWord_cmd 0x02#8
  | dec => exact decodeWord_cmd 0x03#8
  | ginit => exact decodeWord_cmd 0x10#8
  | advance => exact decodeWord_cmd 0x11#8
  | nextbyte => exact decodeWord_cmd 0x12#8
  | illegal op =>
    have hop : op ∉ commandCodes := by simpa [Instr.wellFormed] using h
    obtain ⟨-, hd⟩ | hc := decodeCommand_cases op
    · exact (decodeWord_cmd op).trans hd
    · exact absurd (by simp only [commandCodes, List.mem_cons]; tauto) hop
  | isinit d => exact decodeWord_read 0x41#7 d
  | rdbyte d => exact decodeWord_read 0x42#7 d
  | rd a d =>
    obtain ⟨h1, h2⟩ : a ≠ 0x41#7 ∧ a ≠ 0x42#7 := by simpa [Instr.wellFormed] using h
    rw [encode, decodeWord_read]
    simp [decodeRead, h1, h2]
  | wr a d =>
    have ha : a ≠ 0x40#7 := by simpa [Instr.wellFormed] using h
    rw [encode, decodeWord_write, if_neg ha]

end Sys2Proof

namespace Sys2Proof.Machine

/-! ### The generator commands: what they leave alone -/

/-- `t` agrees with `s` on all that 42 R180 keeps from a generator command: the host's registers but BYTEOUT, context
U, the fault bits, the host program, its results, and the parameters. -/
structure GeneratorFrame (s t : State) : Prop where
  keyin : t.keyin = s.keyin
  keyinMask : t.keyinMask = s.keyinMask
  din : t.din = s.din
  dout : t.dout = s.dout
  ctxU : t.ctxU = s.ctxU
  fatal : t.fatal = s.fatal
  cause : t.cause = s.cause
  program : t.program = s.program
  pos : t.pos = s.pos
  returned : t.returned = s.returned
  params : t.params = s.params

theorem GeneratorFrame.refl (s : State) : GeneratorFrame s s := by constructor <;> rfl

theorem GeneratorFrame.trans {s t u : State} (h : GeneratorFrame s t) (h' : GeneratorFrame t u) :
    GeneratorFrame s u where
  keyin := h'.keyin.trans h.keyin
  keyinMask := h'.keyinMask.trans h.keyinMask
  din := h'.din.trans h.din
  dout := h'.dout.trans h.dout
  ctxU := h'.ctxU.trans h.ctxU
  fatal := h'.fatal.trans h.fatal
  cause := h'.cause.trans h.cause
  program := h'.program.trans h.program
  pos := h'.pos.trans h.pos
  returned := h'.returned.trans h.returned
  params := h'.params.trans h.params

/-- The frame as an equation of states, with what is outside it written out. -/
theorem GeneratorFrame.eq_update {s t : State} (h : GeneratorFrame s t) : t = { s with
    byteout := t.byteout, ctxG := t.ctxG, gstate := t.gstate, triple := t.triple, cursor := t.cursor
    seq := t.seq, store := t.store, draws := t.draws, entropyIn := t.entropyIn, outcomesIn := t.outcomesIn } := by
  rw [State.mk.injEq]
  simp [h.keyin, h.keyinMask, h.din, h.dout, h.ctxU, h.fatal, h.cause, h.program, h.pos, h.returned, h.params]

/-! ### Lazy initialisation -/

theorem lazyInit_frame (s : State) : GeneratorFrame s (lazyInit s) := by
  by_cases h : s.gstate = .uninitialized
  · rw [lazyInit_uninitialized h, generatorInit_frame]
    constructor <;> rfl
  · rw [lazyInit_started h]
    exact .refl s

@[simp] theorem lazyInit_byteout (s : State) : (lazyInit s).byteout = s.byteout := by
  by_cases h : s.gstate = .uninitialized
  · rw [lazyInit_uninitialized h, generatorInit_frame]
  · rw [lazyInit_started h]

theorem lazyInit_ready {s : State} (h : s.gstate = .uninitialized) :
    (lazyInit s).ReadyWith (initialTriple s) 16 := by
  rw [lazyInit_uninitialized h]
  exact generatorInit_ready s

theorem lazyInit_gstate_ne (s : State) : (lazyInit s).gstate ≠ .uninitialized := by
  by_cases h : s.gstate = .uninitialized
  · simp [(lazyInit_ready h).1]
  · rwa [lazyInit_started h]

@[simp] theorem lazyInit_lazyInit (s : State) : lazyInit (lazyInit s) = lazyInit s :=
  lazyInit_started (lazyInit_gstate_ne s)

/-- `keyedG` is set by the initialisation (10 R29). -/
theorem lazyInit_keyedG (s : State) : (lazyInit s).keyedG = (s.keyedG || decide (s.gstate = .uninitialized)) := by
  by_cases h : s.gstate = .uninitialized
  · obtain ⟨-, -, -, hg⟩ := lazyInit_ready h
    simp [State.keyedG, hg, h]
  · simp [lazyInit_started h, h]

/-- A loaded record takes no draw, a synthesised one takes three (42 R184, R187). -/
theorem generatorInit_seq (s : State) :
    (generatorInit s).seq = s.seq ∨ (generatorInit s).seq = s.seq + 1 + 1 + 1 := by
  unfold generatorInit
  split
  · exact .inl rfl
  · exact .inr rfl

/-! ### Advance and byte output -/

/-- An advance keeps BYTEOUT and context G besides the frame (42 R189). -/
theorem advanceBlock_frame {s u : State} (h : advanceBlock s = .next u) :
    GeneratorFrame s u ∧ u.byteout = s.byteout ∧ u.ctxG = s.ctxG := by
  obtain ⟨t, g, ht, hg⟩ := advanceBlock_next h
  obtain ⟨t', -, -, -, hu⟩ := advanceBlock_some ht hg
  cases hu.symm.trans h
  exact ⟨by constructor <;> rfl, rfl, rfl⟩

theorem emitByte_frame {s u : State} (h : emitByte s = .next u) : GeneratorFrame s u ∧ u.ctxG = s.ctxG := by
  obtain ⟨t, c, hc, -, -, rfl⟩ := emitByte_next h
  exact ⟨by constructor <;> rfl, rfl⟩

/-! ### What a generator command does -/

theorem isGenerator_cases {i : Instr} (hi : i.isGenerator = true) : i = .ginit ∨ i = .advance ∨ i = .nextbyte := by
  cases i <;> simp_all [Instr.isGenerator]

/-- What a generator command does after its lazy initialisation (42 R191 to R193). -/
inductive GeneratorMove : Instr → State → State → Prop where
  | init (s : State) : GeneratorMove .ginit s s
  | advance {s t : State} (ha : advanceBlock s = .next t) : GeneratorMove .advance s t
  | emit {s t : State} (hc : s.cursor ≠ some 16) (he : emitByte s = .next t) : GeneratorMove .nextbyte s t
  | refill {s v t : State} (hc : s.cursor = some 16) (ha : advanceBlock s = .next v) (he : emitByte v = .next t) :
      GeneratorMove .nextbyte s t

theorem nextbyteCommand_move {s t : State} (h : nextbyteCommand s = .next t) :
    GeneratorMove .nextbyte (lazyInit s) t := by
  simp only [nextbyteCommand] at h
  split_ifs at h with hc
  · obtain ⟨v, ha, he⟩ := andThen_eq_next.mp h
    exact .refill hc ha he
  · exact .emit hc h

/-- Everything a generator command that answers a next state can do (42 R180). -/
theorem exec_generator_cases {i : Instr} {s t : State} (hi : i.isGenerator = true) (h : exec i s = .next t) :
    (s.fatal = true ∧ t = s) ∨ (s.fatal = false ∧ GeneratorMove i (lazyInit s) t) := by
  obtain rfl | rfl | rfl := isGenerator_cases hi
  · refine (startCommand_cases h).imp_right (.imp_right fun hb => ?_)
    cases hb
    exact .init _
  · exact (startCommand_cases h).imp_right (.imp_right .advance)
  · exact (startCommand_cases h).imp_right (.imp_right nextbyteCommand_move)

theorem GeneratorMove.frame {i : Instr} {s t : State} (h : GeneratorMove i s t) :
    GeneratorFrame s t ∧ t.ctxG = s.ctxG ∧ (i ≠ .nextbyte → t.byteout = s.byteout) := by
  cases h with
  | init => exact ⟨.refl s, rfl, fun _ => rfl⟩
  | advance ha =>
    obtain ⟨hf, hb, hg⟩ := advanceBlock_frame ha
    exact ⟨hf, hg, fun _ => hb⟩
  | emit _ he =>
    obtain ⟨hf, hg⟩ := emitByte_frame he
    exact ⟨hf, hg, fun hi => absurd rfl hi⟩
  | refill _ ha he =>
    obtain ⟨hfa, -, hga⟩ := advanceBlock_frame ha
    obtain ⟨hfe, hge⟩ := emitByte_frame he
    exact ⟨hfa.trans hfe, hge.trans hga, fun hi => absurd rfl hi⟩

theorem exec_generator_frame {i : Instr} {s t : State} (hi : i.isGenerator = true) (h : exec i s = .next t) :
    GeneratorFrame s t := by
  obtain ⟨-, rfl⟩ | ⟨-, hm⟩ := exec_generator_cases hi h
  · exact .refl t
  · exact (lazyInit_frame s).trans hm.frame.1

theorem exec_generator_byteout {i : Instr} {s t : State} (hi : i.isGenerator = true) (hn : i ≠ .nextbyte)
    (h : exec i s = .next t) : t.byteout = s.byteout := by
  obtain ⟨-, rfl⟩ | ⟨-, hm⟩ := exec_generator_cases hi h
  · rfl
  · obtain ⟨-, -, hb⟩ := hm.frame
    exact (hb hn).trans (lazyInit_byteout s)

theorem exec_generator_keyedG {i : Instr} {s t : State} (hi : i.isGenerator = true) (h : exec i s = .next t) :
    t.keyedG = (s.keyedG || decide (s.fatal = false ∧ s.gstate = .uninitialized)) := by
  obtain ⟨hf, rfl⟩ | ⟨hf, hm⟩ := exec_generator_cases hi h
  · simp [hf]
  · obtain ⟨-, hg, -⟩ := hm.frame
    calc t.keyedG = (lazyInit s).keyedG := congrArg Option.isSome hg
      _ = _ := by simp [lazyInit_keyedG, hf]

/-! ### Generator commands of a running engine -/

/-- A generator command does what GINIT and then the command would (42 R180). -/
theorem exec_generator_lazyInit {i : Instr} {s : State} (hi : i.isGenerator = true) (hf : s.fatal = false) :
    exec i s = exec i (lazyInit s) := by
  have hf' : (lazyInit s).fatal = false := (lazyInit_frame s).fatal.trans hf
  obtain rfl | rfl | rfl := isGenerator_cases hi
  · simp [exec, execGinit, startCommand_running, hf, hf', ginitCommand]
  · simp [exec, execAdvance, startCommand_running, hf, hf', advanceCommand]
  · simp [exec, execNextbyte, startCommand_running, hf, hf', nextbyteCommand]

theorem exec_ginit_started {s : State} (h : s.gstate ≠ .uninitialized) : exec .ginit s = .next s := by
  simp [exec, execGinit, startCommand, ginitCommand, lazyInit_started h]

theorem exec_advance_started {s : State} (hf : s.fatal = false) (h : s.gstate ≠ .uninitialized) :
    exec .advance s = advanceBlock s := by
  simp [exec, execAdvance, startCommand, hf, advanceCommand, lazyInit_started h]

theorem exec_nextbyte_refill {s : State} (hf : s.fatal = false) (h : s.gstate ≠ .uninitialized)
    (hc : s.cursor = some 16) : exec .nextbyte s = andThen (advanceBlock s) emitByte := by
  simp [exec, execNextbyte, startCommand, hf, nextbyteCommand, lazyInit_started h, hc]

theorem exec_nextbyte_emit {s : State} (hf : s.fatal = false) (h : s.gstate ≠ .uninitialized)
    (hc : s.cursor ≠ some 16) : exec .nextbyte s = emitByte s := by
  simp [exec, execNextbyte, startCommand, hf, nextbyteCommand, lazyInit_started h, hc]

theorem State.ReadyWith.started {s : State} {t : Triple} {c : Fin 17} (h : s.ReadyWith t c) :
    s.gstate ≠ .uninitialized := by
  simp [h.1]

/-- A generator command of a running Ready engine leaves it Ready; the triple stays, or is the next keystream block
where the command advances (42 R189 to R194). -/
theorem exec_generator_ready {i : Instr} {s : State} {t : Triple} {c : Fin 17} (hi : i.isGenerator = true)
    (hf : s.fatal = false) (h : s.ReadyWith t c) :
    ∃ u t' c', exec i s = .next u ∧ u.ReadyWith t' c' ∧ u.seq = s.seq ∧
      (t' = t ∨ ((i = .advance ∨ (i = .nextbyte ∧ c = 16)) ∧ t' = nextKeystreamBlock t)) := by
  have hadv := advanceBlock_ready h
  have ⟨hr, ht, hcur, hg⟩ := h
  obtain rfl | rfl | rfl := isGenerator_cases hi
  · exact ⟨s, t, c, exec_ginit_started h.started, h, rfl, .inl rfl⟩
  · rw [exec_advance_started hf h.started, hadv]
    exact ⟨_, nextKeystreamBlock t, 0, rfl, ⟨hr, rfl, rfl, hg⟩, rfl, .inr ⟨.inl rfl, rfl⟩⟩
  · by_cases hc : c = 16
    · subst hc
      rw [exec_nextbyte_refill hf h.started hcur, hadv, andThen_next, emitByte_some rfl rfl (by decide)]
      exact ⟨_, nextKeystreamBlock t, _, rfl, ⟨hr, rfl, rfl, hg⟩, rfl, .inr ⟨.inr ⟨rfl, rfl⟩, rfl⟩⟩
    · rw [exec_nextbyte_emit hf h.started (by simpa [hcur] using hc), emitByte_some ht hcur (by omega)]
      exact ⟨_, t, _, rfl, ⟨hr, ht, rfl, hg⟩, rfl, .inl rfl⟩

/-! ### What the other instructions do -/

/-- A write of `v` to CMD is the command that decodes from `v` (20 R62, 30 R98). -/
theorem exec_wr_cmd (v : Byte) (s : State) : exec (.wr 0x40#7 v) s = exec (decodeCommand v) s := by
  have h : exec (.wr 0x40#7 v) s = startCommand (commandWithCode v) s := hostWrite_cmd v s
  rcases decodeCommand_cases v with
    ⟨hv, hd⟩ | ⟨rfl, hd⟩ | ⟨rfl, hd⟩ | ⟨rfl, hd⟩ | ⟨rfl, hd⟩ | ⟨rfl, hd⟩ | ⟨rfl, hd⟩ <;> rw [h, hd]
  · have hc : commandWithCode v = illegalCommand := funext fun s => by simp_all [commandCodes, commandWithCode]
    rw [hc]
    rfl
  all_goals rfl

/-- Every term does what some well-formed term does: the ill-formed ones are second names (log entry 12). -/
theorem exists_wellFormed_exec_eq (i : Instr) : ∃ j : Instr, j.wellFormed = true ∧ exec i = exec j := by
  cases i with
  | setkey => exact ⟨.setkey, rfl, rfl⟩
  | enc => exact ⟨.enc, rfl, rfl⟩
  | dec => exact ⟨.dec, rfl, rfl⟩
  | ginit => exact ⟨.ginit, rfl, rfl⟩
  | advance => exact ⟨.advance, rfl, rfl⟩
  | nextbyte => exact ⟨.nextbyte, rfl, rfl⟩
  | illegal op => exact ⟨.illegal 0x00#8, rfl, rfl⟩
  | isinit d => exact ⟨.isinit d, rfl, rfl⟩
  | rdbyte d => exact ⟨.rdbyte d, rfl, rfl⟩
  | rd a d =>
    by_cases h1 : a = 0x41#7
    · exact ⟨.isinit d, rfl, by rw [h1]; rfl⟩
    · by_cases h2 : a = 0x42#7
      · exact ⟨.rdbyte d, rfl, by rw [h2]; rfl⟩
      · exact ⟨.rd a d, by simp [Instr.wellFormed, h1, h2], rfl⟩
  | wr a d =>
    by_cases ha : a = 0x40#7
    · exact ⟨decodeCommand d, decodeCommand_wellFormed d, funext fun s => by rw [ha, exec_wr_cmd]⟩
    · exact ⟨.wr a d, by simp [Instr.wellFormed, ha], rfl⟩

/-- What a well-formed instruction that answers a next state has done: a write or command that the fatal state ignores,
a cipher command (41 R161 to R164), ILLEGAL (30 R96), a read, a write to each range of 20 R62, or a generator command,
whose own cases are those of `exec_generator_cases`. -/
inductive Effect (s : State) : Instr → State → Prop where
  | notStarted {i : Instr} (hi : i.isRead = false) (hf : s.fatal = true) : Effect s i s
  | keyed (hf : s.fatal = false) (hm : s.keyinMask = 0xFFFFFFFF#32) : Effect s .setkey { s with
      ctxU := some (contextOf s.keyin), keyin := Vector.replicate 32 0x00#8, keyinMask := 0#32 }
  | keySize (hf : s.fatal = false) (hm : s.keyinMask ≠ 0xFFFFFFFF#32) : Effect s .setkey (raiseFatal .keySize s)
  | enc {g : Context} (hf : s.fatal = false) (hc : s.ctxU = some g) :
      Effect s .enc { s with dout := encrypt g.ek s.din }
  | dec {g : Context} (hf : s.fatal = false) (hc : s.ctxU = some g) :
      Effect s .dec { s with dout := decrypt g.dk s.din }
  | notKeyed {i : Instr} (hi : i = .enc ∨ i = .dec) (hf : s.fatal = false) (hc : s.ctxU = none) :
      Effect s i (raiseFatal .notKeyed s)
  | illegal {op : Byte} (hf : s.fatal = false) : Effect s (.illegal op) (raiseFatal .illegalCommand s)
  | read {i : Instr} {a : HostAddr} (hi : i.isRead = true) : Effect s i (respond (hostReadByte s a) s)
  | writeKeyin {a : HostAddr} {d : Byte} (hf : s.fatal = false) (ha : a.toNat < 0x20) :
      Effect s (.wr a d) (writeKeyin a.toNat ha d s)
  | writeDin {a : HostAddr} {d : Byte} (hf : s.fatal = false) (ha : 0x20 ≤ a.toNat) (ha' : a.toNat - 0x20 < 16) :
      Effect s (.wr a d) (writeDin (a.toNat - 0x20) ha' d s)
  | writeIgnored {a : HostAddr} {d : Byte} (ha : 0x30 ≤ a.toNat) : Effect s (.wr a d) s
  | generator {i : Instr} {t : State} (hi : i.isGenerator = true) (h : exec i s = .next t) : Effect s i t

theorem Effect.of_startCommand {body : State → Result} {i : Instr} {s t : State} (hi : i.isRead = false)
    (h : startCommand body s = .next t) (hb : s.fatal = false → body s = .next t → Effect s i t) : Effect s i t := by
  obtain ⟨hf, rfl⟩ | ⟨hf, h⟩ := startCommand_cases h
  · exact .notStarted hi hf
  · exact hb hf h

theorem setKeyCommand_effect {s t : State} (hf : s.fatal = false) (h : setKeyCommand s = .next t) :
    Effect s .setkey t := by
  by_cases hm : s.keyinMask = 0xFFFFFFFF#32
  · cases (setKeyCommand_complete hm).symm.trans h
    exact .keyed hf hm
  · cases (setKeyCommand_incomplete hm).symm.trans h
    exact .keySize hf hm

theorem blockCommand_effect {f : Context → Block → Block} {i : Instr} {s t : State} (hi : i = .enc ∨ i = .dec)
    (hf : s.fatal = false) (hk : ∀ g, s.ctxU = some g → Effect s i { s with dout := f g s.din })
    (h : blockCommand f s = .next t) : Effect s i t := by
  cases hc : s.ctxU with
  | none =>
    cases (blockCommand_unkeyed hc).symm.trans h
    exact .notKeyed hi hf hc
  | some g =>
    cases (blockCommand_keyed hc).symm.trans h
    exact hk g hc

theorem hostRead_effect {i : Instr} {a : HostAddr} {s t : State} (hi : i.isRead = true)
    (h : hostRead a s = .next t) : Effect s i t := by
  cases h
  exact .read hi

theorem hostWrite_effect {a : HostAddr} {d : Byte} {s t : State} (ha : a ≠ 0x40#7)
    (h : hostWrite a d s = .next t) : Effect s (.wr a d) t := by
  cases (hostWrite_register ha d s).symm.trans h
  cases hf : s.fatal with
  | true => exact .notStarted rfl hf
  | false =>
    simp only [Bool.false_eq_true, if_false, writeRegister]
    split_ifs with hk hd
    · exact .writeKeyin hf hk
    · exact .writeDin hf (by omega) _
    · exact .writeIgnored (by omega)

/-- Everything a well-formed instruction that answers a next state can do. -/
theorem exec_effect {i : Instr} {s t : State} (hi : i.wellFormed = true) (h : exec i s = .next t) : Effect s i t := by
  cases i with
  | setkey => exact .of_startCommand rfl h setKeyCommand_effect
  | enc => exact .of_startCommand rfl h fun hf => blockCommand_effect (.inl rfl) hf fun _ hc => .enc hf hc
  | dec => exact .of_startCommand rfl h fun hf => blockCommand_effect (.inr rfl) hf fun _ hc => .dec hf hc
  | ginit => exact .generator rfl h
  | advance => exact .generator rfl h
  | nextbyte => exact .generator rfl h
  | illegal op =>
    refine .of_startCommand rfl h fun hf hb => ?_
    cases hb
    exact .illegal hf
  | isinit d => exact hostRead_effect rfl h
  | rdbyte d => exact hostRead_effect rfl h
  | rd a d => exact hostRead_effect rfl h
  | wr a d => exact hostWrite_effect (by simpa [Instr.wellFormed] using hi) h

/-- No instruction writes the host program, its index or the parameters (10 R27, R43). -/
theorem Effect.keeps_program {i : Instr} {s t : State} (h : Effect s i t) :
    t.pos = s.pos ∧ t.program = s.program ∧ t.params = s.params := by
  cases h with
  | generator hi h =>
    have hf := exec_generator_frame hi h
    exact ⟨hf.pos, hf.program, hf.params⟩
  | _ => exact ⟨rfl, rfl, rfl⟩

theorem exec_keeps_program {i : Instr} {s t : State} (h : exec i s = .next t) :
    t.pos = s.pos ∧ t.program = s.program ∧ t.params = s.params := by
  obtain ⟨j, hj, hij⟩ := exists_wellFormed_exec_eq i
  exact (exec_effect hj (hij ▸ h)).keeps_program

/-! ### Where the other instructions answer -/

theorem startCommand_answers {body : State → Result} (hb : ∀ s, ∃ t, body s = .next t) (s : State) :
    ∃ t, startCommand body s = .next t := by
  cases hf : s.fatal with
  | true => exact ⟨s, startCommand_fatal hf⟩
  | false => rw [startCommand_running hf]; exact hb s

theorem setKeyCommand_answers (s : State) : ∃ t, setKeyCommand s = .next t := by
  by_cases hm : s.keyinMask = 0xFFFFFFFF#32
  · exact ⟨_, setKeyCommand_complete hm⟩
  · exact ⟨_, setKeyCommand_incomplete hm⟩

theorem blockCommand_answers (f : Context → Block → Block) (s : State) : ∃ t, blockCommand f s = .next t := by
  cases hc : s.ctxU with
  | none => exact ⟨_, blockCommand_unkeyed hc⟩
  | some c => exact ⟨_, blockCommand_keyed hc⟩

/-- Only a generator command can stop. -/
theorem exec_answers_of_not_generator {i : Instr} (hw : i.wellFormed = true) (hi : i.isGenerator = false) (s : State) :
    ∃ t, exec i s = .next t := by
  cases i with
  | setkey => exact startCommand_answers setKeyCommand_answers s
  | enc => exact startCommand_answers (blockCommand_answers _) s
  | dec => exact startCommand_answers (blockCommand_answers _) s
  | ginit => cases hi
  | advance => cases hi
  | nextbyte => cases hi
  | illegal op => exact startCommand_answers (fun _ => ⟨_, rfl⟩) s
  | isinit d => exact ⟨_, rfl⟩
  | rdbyte d => exact ⟨_, rfl⟩
  | rd a d => exact ⟨_, rfl⟩
  | wr a d => exact ⟨_, hostWrite_register (by simpa [Instr.wellFormed] using hw) d s⟩

/-! ### The invariant of a command boundary -/

theorem exec_generator_fatal {i : Instr} {s : State} (hi : i.isGenerator = true) (hf : s.fatal = true) :
    exec i s = .next s := by
  obtain rfl | rfl | rfl := isGenerator_cases hi <;> exact startCommand_fatal hf

/-- At a command boundary lazy initialisation leaves the generator Ready, with at most three draws made. -/
theorem State.Inv.lazyInit_ready {s : State} (hs : s.Inv) :
    ∃ t c, (lazyInit s).ReadyWith t c ∧ (lazyInit s).seq ≤ 3#64 := by
  obtain ⟨hu, -, -, -, hseq⟩ | ⟨t, c, hr, hseq⟩ := hs.generator
  · refine ⟨_, _, Machine.lazyInit_ready hu, ?_⟩
    rw [lazyInit_uninitialized hu]
    rcases generatorInit_seq s with h | h <;> rw [h, hseq] <;> decide
  · rw [lazyInit_started hr.started]
    exact ⟨t, c, hr, hseq⟩

/-- What a generator command does at a command boundary of a running engine. -/
theorem State.Inv.exec_generator {i : Instr} {s : State} (hs : s.Inv) (hi : i.isGenerator = true)
    (hf : s.fatal = false) : ∃ u t c, exec i s = .next u ∧ u.ReadyWith t c ∧ u.seq ≤ 3#64 := by
  obtain ⟨t, c, hr, hseq⟩ := hs.lazyInit_ready
  obtain ⟨u, t', c', hu, hr', hseq', -⟩ := exec_generator_ready hi ((lazyInit_frame s).fatal.trans hf) hr
  exact ⟨u, t', c', (exec_generator_lazyInit hi hf).trans hu, hr', hseq' ▸ hseq⟩

theorem State.Inv.raiseFatal {s : State} (hs : s.Inv) (c : Cause) : (raiseFatal c s).Inv where
  generator := hs.generator
  contextU := hs.contextU
  cause := by cases c <;> simp [causeCode]
  causeCodes := by rw [raiseFatal_cause]; cases c <;> decide

theorem State.Inv.of_generatorFrame {s t : State} (hs : s.Inv) (h : GeneratorFrame s t)
    (hg : t.Unstarted ∨ ∃ r c, t.ReadyWith r c ∧ t.seq ≤ 3#64) : t.Inv where
  generator := hg
  contextU := h.ctxU ▸ hs.contextU
  cause := h.cause ▸ h.fatal ▸ hs.cause
  causeCodes := h.cause ▸ hs.causeCodes

theorem State.Inv.next_of_generator {i : Instr} {s t : State} (hs : s.Inv) (hi : i.isGenerator = true)
    (h : exec i s = .next t) : t.Inv := by
  cases hf : s.fatal with
  | true =>
    cases (exec_generator_fatal hi hf).symm.trans h
    exact hs
  | false =>
    obtain ⟨u, r, c, hu, hg⟩ := hs.exec_generator hi hf
    cases hu.symm.trans h
    exact hs.of_generatorFrame (exec_generator_frame hi h) (.inr ⟨r, c, hg⟩)

/-- Context U changes under SETKEY, the fault bits where a fault is raised, the generator under its commands; every
other register is outside the invariant. -/
theorem Effect.keeps_inv {i : Instr} {s t : State} (h : Effect s i t) (hs : s.Inv) : t.Inv := by
  cases h with
  | keyed => exact ⟨hs.generator, fun g hg => ⟨s.keyin, (Option.some.inj hg).symm⟩, hs.cause, hs.causeCodes⟩
  | keySize => exact hs.raiseFatal .keySize
  | notKeyed => exact hs.raiseFatal .notKeyed
  | illegal => exact hs.raiseFatal .illegalCommand
  | generator hi h => exact hs.next_of_generator hi h
  | _ => exact ⟨hs.generator, hs.contextU, hs.cause, hs.causeCodes⟩

theorem exec_keeps_inv {i : Instr} {s t : State} (h : exec i s = .next t) (hs : s.Inv) : t.Inv := by
  obtain ⟨j, hj, hij⟩ := exists_wellFormed_exec_eq i
  exact (exec_effect hj (hij ▸ h)).keeps_inv hs

theorem State.AsReset.inv {s : State} (h : s.AsReset) : s.Inv where
  generator := .inl ⟨h.gstate, h.contextG, h.noTriple, h.noCursor, h.seq⟩
  contextU g hg := by simp [h.contextU] at hg
  cause := by simp [h.cause, h.fatal]
  causeCodes := by simp [h.cause]

theorem State.reset_asReset : State.reset.AsReset := by constructor <;> rfl

theorem resetEngine_asReset (s : State) : (resetEngine s).AsReset := by constructor <;> rfl

theorem State.Inv.advancePos {s : State} (hs : s.Inv) : (advancePos s).Inv :=
  ⟨hs.generator, hs.contextU, hs.cause, hs.causeCodes⟩

/-- Settles O11: each case of a step keeps the invariant. -/
theorem stepKeepsTheInvariant : Obligations.StepKeepsTheInvariant := by
  intro s u hs h
  obtain ⟨-, rfl⟩ | ⟨w, t, -, ht, rfl⟩ | ⟨-, rfl⟩ | ⟨c, -, -, rfl⟩ := step_cases h
  · exact hs
  · exact (exec_keeps_inv ht hs).advancePos
  · exact (resetEngine_asReset s).inv.advancePos
  · exact ⟨hs.generator, hs.contextU, hs.cause, hs.causeCodes⟩

/-- Settles O12: only generator commands can stop, and at a boundary they find a Ready generator. -/
theorem noInstructionStopsAtABoundary : Obligations.NoInstructionStopsAtABoundary := by
  intro s i hs
  obtain ⟨j, hj, hij⟩ := exists_wellFormed_exec_eq i
  rw [hij]
  cases hg : j.isGenerator with
  | false => exact exec_answers_of_not_generator hj hg s
  | true =>
    cases hf : s.fatal with
    | true => exact ⟨s, exec_generator_fatal hg hf⟩
    | false =>
      obtain ⟨u, -, -, hu, -⟩ := hs.exec_generator hg hf
      exact ⟨u, hu⟩

/-- Settles O10: the values of 10 R40 meet each clause. -/
theorem invariantAfterReset : Obligations.InvariantAfterReset :=
  ⟨State.reset_asReset.inv, fun _ => State.AsReset.inv⟩

/-- Settles O9: the step is the RESET event and the index. -/
theorem resetLeavesTheStatedValues : Obligations.ResetLeavesTheStatedValues := by
  refine ⟨State.reset_asReset, fun s h => ⟨advancePos (resetEngine s), step_of_nextItem h, ?_⟩⟩
  refine ⟨?_, rfl, rfl, rfl, rfl, rfl, rfl, rfl, rfl⟩
  constructor <;> rfl

/-- Settles O7, by the cases of a step. -/
theorem thePositionCountsItems : Obligations.ThePositionCountsItems := by
  refine ⟨rfl, fun i s t h => ?_, fun s u hlt h => ?_, fun s hle => ?_⟩
  · obtain ⟨hpos, hprog, -⟩ := exec_keeps_program h
    exact ⟨hpos, hprog⟩
  · obtain ⟨hn, -⟩ | ⟨w, t, -, ht, rfl⟩ | ⟨-, rfl⟩ | ⟨c, -, -, rfl⟩ := step_cases h
    · exact absurd (List.getElem?_eq_none_iff.mp hn) (by omega)
    · obtain ⟨hpos, hprog, -⟩ := exec_keeps_program ht
      exact ⟨congrArg (· + 1) hpos, hprog⟩
    · exact ⟨rfl, rfl⟩
    · exact ⟨rfl, rfl⟩
  · have hn : nextItem s = none := List.getElem?_eq_none_iff.mpr hle
    simp [step, hn]

/-- Settles O8, by the cases of a step. -/
theorem stepKeepsTheParameters : Obligations.StepKeepsTheParameters := by
  intro s u h
  obtain ⟨-, rfl⟩ | ⟨w, t, -, ht, rfl⟩ | ⟨-, rfl⟩ | ⟨c, -, -, rfl⟩ := step_cases h
  · rfl
  · obtain ⟨-, -, hparams⟩ := exec_keeps_program ht
    exact hparams
  · rfl
  · rfl

/-- Settles O6: the word decodes to the instruction it is the word of. -/
theorem stepRunsTheDecodedInstruction : Obligations.StepRunsTheDecodedInstruction := by
  intro s i hi h
  rw [step_of_nextItem h]
  simp only [performItem, decodeWord_encode hi]
  cases exec i s <;> rfl

/-- Settles O46: only a generator command that starts touches the generator. -/
theorem onlyAnAdvanceChangesTheTriple : Obligations.OnlyAnAdvanceChangesTheTriple := by
  intro s u i t c hw hr h
  cases exec_effect hw h with
  | generator hi =>
    cases hf : s.fatal with
    | true =>
      cases (exec_generator_fatal hi hf).symm.trans h
      exact ⟨t, c, hr, rfl, .inl rfl⟩
    | false =>
      obtain ⟨v, t', c', hv, hr', -, rfl | ⟨hadv, rfl⟩⟩ := exec_generator_ready hi hf hr <;> cases hv.symm.trans h
      · exact ⟨t', c', hr', rfl, .inl rfl⟩
      · exact ⟨_, c', hr', rfl, .inr ⟨rfl, hadv, rfl⟩⟩
  | _ => exact ⟨t, c, hr, rfl, .inl rfl⟩

/-! ### Who writes what -/

/-- The cipher commands and ILLEGAL keep the generator, context G, BYTEOUT, `seq`, the store and all outside the engine
(41 R160). -/
theorem Effect.command_frame {i : Instr} {s t : State} (h : Effect s i t) (hr : i.isRead = false)
    (hg : i.isGenerator = false) (hw : ∀ a d, i ≠ .wr a d) : t = { s with
      keyin := t.keyin, keyinMask := t.keyinMask, dout := t.dout, ctxU := t.ctxU, fatal := t.fatal
      cause := t.cause } := by
  cases h with
  | read hi => simp [hr] at hi
  | writeKeyin => exact absurd rfl (hw _ _)
  | writeDin => exact absurd rfl (hw _ _)
  | writeIgnored => rfl
  | generator hi => simp [hg] at hi
  | _ => rfl

theorem Effect.keeps_byteout {i : Instr} {s t : State} (h : Effect s i t) (hn : i ≠ .nextbyte) :
    t.byteout = s.byteout := by
  cases h with
  | generator hi h => exact exec_generator_byteout hi hn h
  | _ => rfl

theorem Effect.keeps_contexts {i : Instr} {s t : State} (h : Effect s i t) (hk : i ≠ .setkey)
    (hg : i.isGenerator = false) : t.ctxU = s.ctxU ∧ t.ctxG = s.ctxG := by
  cases h with
  | keyed => exact absurd rfl hk
  | generator hi => simp [hg] at hi
  | _ => exact ⟨rfl, rfl⟩

/-- Settles O56: from the frames of the two families of commands. -/
theorem commandFrames : Obligations.CommandFrames := by
  intro s t i h
  refine ⟨fun hi => ?_, fun hi => (exec_generator_frame hi h).eq_update⟩
  obtain rfl | rfl | rfl | ⟨op, rfl⟩ := hi
  · exact (exec_effect rfl h).command_frame rfl rfl (by simp)
  · exact (exec_effect rfl h).command_frame rfl rfl (by simp)
  · exact (exec_effect rfl h).command_frame rfl rfl (by simp)
  · have h' : exec (.illegal 0x00#8) s = .next t := h
    exact (exec_effect rfl h').command_frame rfl rfl (by simp)

/-- Settles O57: by what the instruction can have done. -/
theorem whoWritesEachRegister : Obligations.WhoWritesEachRegister := by
  intro s t i hw h
  have he := exec_effect hw h
  have hb : t.byteout ≠ s.byteout → i = .nextbyte := fun hne => by_contra fun hn => hne (he.keeps_byteout hn)
  cases he with
  | generator hi =>
    have hf := exec_generator_frame hi h
    simpa [hf.keyin, hf.keyinMask, hf.din, hf.dout, hf.returned, hi] using hb
  | read hi => simp [hi]
  | writeKeyin _ ha => simp [ha]
  | @writeDin a d _ ha ha' =>
    have ha30 : a.toNat < 0x30 := by omega
    simp [ha, ha30]
  | _ => simp

theorem setkey_keyedU {s t : State} (h : exec .setkey s = .next t) :
    t.keyedU = (s.keyedU || decide (s.fatal = false ∧ s.keyinMask = 0xFFFFFFFF#32)) := by
  cases exec_effect rfl h with
  | notStarted _ hf => simp [hf]
  | keyed hf hm => simp [State.keyedU, hf, hm]
  | keySize _ hm => simp [State.keyedU, hm]
  | notKeyed hi => simp at hi
  | read hi => cases hi
  | generator hi => cases hi

/-- Settles O58: SETKEY and the generator commands apart from all others. -/
theorem keyedFlags : Obligations.KeyedFlags := by
  intro s t i hw h
  by_cases hk : i = .setkey
  · subst hk
    have hG : t.ctxG = s.ctxG := by rw [(exec_effect rfl h).command_frame rfl rfl (by simp)]
    simp [setkey_keyedU h, State.keyedG, hG, Instr.isGenerator]
  · cases hg : i.isGenerator with
    | false =>
      obtain ⟨hU, hG⟩ := (exec_effect hw h).keeps_contexts hk hg
      simp [State.keyedU, State.keyedG, hU, hG, hk]
    | true => simp [exec_generator_keyedG hg h, State.keyedU, (exec_generator_frame hg h).ctxU, hk]

/-! ### Reads of STATUS and BYTEOUT -/

theorem exec_wr_ignored {a : HostAddr} (h : 0x30 ≤ a.toNat) (hc : a ≠ 0x40#7) (v : Byte) (s : State) :
    exec (.wr a v) s = .next s := by
  have hw : exec (.wr a v) s = .next (if s.fatal then s else writeRegister a v s) := hostWrite_register hc v s
  rw [hw, writeRegister_ignored h, ite_self]

/-- A bit of STATUS is a bit of one of its fields (10 R28). -/
theorem statusByte_getLsbD (s : State) (i : Nat) : (statusByte s).getLsbD i =
    if i < 1 then (BitVec.ofBool s.keyedU).getLsbD i
    else if i - 1 < 1 then (BitVec.ofBool s.fatal).getLsbD (i - 1)
    else if i - 1 - 1 < 2 then (0#2).getLsbD (i - 1 - 1) else s.cause.getLsbD (i - 1 - 1 - 2) := by
  simp only [statusByte, BitVec.getLsbD_append]

theorem statusByte_keyed (s : State) : (statusByte s).getLsbD 0 = s.keyedU := by
  simp only [statusByte_getLsbD]
  simp

theorem statusByte_fatal (s : State) : (statusByte s).getLsbD 1 = s.fatal := by
  simp only [statusByte_getLsbD]
  simp

theorem statusByte_zeros (s : State) : (statusByte s).extractLsb' 2 2 = 0#2 := by
  apply BitVec.eq_of_getLsbD_eq
  intro i hi
  simp only [BitVec.getLsbD_extractLsb', statusByte_getLsbD]
  simp [hi, show ¬ 2 + i < 1 by omega]

theorem statusByte_cause (s : State) : (statusByte s).extractLsb' 4 4 = s.cause := by
  apply BitVec.eq_of_getLsbD_eq
  intro i hi
  simp only [BitVec.getLsbD_extractLsb', statusByte_getLsbD]
  simp [hi, show ¬ 2 + i ≤ 1 by omega]

/-- Settles O16: STATUS field by field. -/
theorem statusFields : Obligations.StatusFields :=
  ⟨fun s _ => ⟨statusByte s, rfl, statusByte_keyed s, statusByte_fatal s, statusByte_zeros s, statusByte_cause s⟩,
    fun s v => exec_wr_ignored (by decide) (by decide) v s, fun _ _ _ _ _ _ => rfl⟩

/-- Settles O17: a read appends BYTEOUT, and `Effect.keeps_byteout` gives the rest. -/
theorem rdbyteReturnsByteout : Obligations.RdbyteReturnsByteout := by
  intro s d d' v
  refine ⟨rfl, ?_, exec_wr_ignored (by decide) (by decide) v s,
    fun i t hw hi h => (exec_effect hw h).keeps_byteout hi⟩
  have hr (d : Byte) (s : State) : exec (.rdbyte d) s = .next (respond s.byteout s) := rfl
  simp [execAll, hr, respond]

/-! ### Where the generator stops -/

/-- The operation stops with `noValue` where `P` holds, and answers a next state everywhere else (93 U15). -/
def StopsExactlyIf (P : Prop) (r : Result) : Prop :=
  (P ∧ r = .fault .noValue) ∨ (¬ P ∧ ∃ t, r = .next t)

theorem StopsExactlyIf.fault_iff {P : Prop} {r : Result} (h : StopsExactlyIf P r) : r = .fault .noValue ↔ P := by
  obtain ⟨hP, hr⟩ | ⟨hP, t, hr⟩ := h <;> simp [hP, hr]

theorem StopsExactlyIf.next_or_fault {P : Prop} {r : Result} (h : StopsExactlyIf P r) :
    (∃ t, r = .next t) ∨ r = .fault .noValue := by
  obtain ⟨-, hr⟩ | ⟨-, ht⟩ := h
  · exact .inr hr
  · exact .inl ht

theorem advanceBlock_stops (s : State) : StopsExactlyIf (s.triple = none ∨ s.ctxG = none) (advanceBlock s) := by
  cases ht : s.triple with
  | none => exact .inl ⟨.inl rfl, by simp [advanceBlock, ht]⟩
  | some t =>
    cases hg : s.ctxG with
    | none => exact .inl ⟨.inr rfl, by simp [advanceBlock, ht, hg]⟩
    | some g =>
      obtain ⟨t', -, -, -, ha⟩ := advanceBlock_some ht hg
      exact .inr ⟨by simp, _, ha⟩

/-- At a cursor of 16 the byte comes from the advance's block, so the emission after it never stops (42 R193). -/
theorem refill_stops (s : State) :
    StopsExactlyIf (s.triple = none ∨ s.ctxG = none) (andThen (advanceBlock s) emitByte) := by
  obtain ⟨hP, ha⟩ | ⟨hP, v, ha⟩ := advanceBlock_stops s
  · exact .inl ⟨hP, by rw [ha]; rfl⟩
  · obtain ⟨t, g, ht, hg⟩ := advanceBlock_next ha
    obtain ⟨t', -, -, -, hu⟩ := advanceBlock_some ht hg
    refine .inr ⟨hP, ?_⟩
    rw [hu, andThen_next, emitByte_some rfl rfl (by decide)]
    exact ⟨_, rfl⟩

theorem emitByte_stops {s : State} (hc : s.cursor ≠ some 16) :
    StopsExactlyIf (s.triple = none ∨ s.cursor = none) (emitByte s) := by
  cases ht : s.triple with
  | none => exact .inl ⟨.inl rfl, by simp [emitByte, ht]⟩
  | some t =>
    cases hcur : s.cursor with
    | none => exact .inl ⟨.inr rfl, by simp [emitByte, ht, hcur]⟩
    | some c =>
      have hne : c ≠ 16 := fun h => hc (by rw [hcur, h])
      exact .inr ⟨by simp, _, emitByte_some ht hcur (by omega)⟩

theorem exec_nextbyte_stops {s : State} (hf : s.fatal = false) (hs : s.gstate ≠ .uninitialized) :
    StopsExactlyIf (s.triple = none ∨ s.cursor = none ∨ (s.cursor = some 16 ∧ s.ctxG = none)) (exec .nextbyte s) := by
  by_cases hc : s.cursor = some 16
  · rw [exec_nextbyte_refill hf hs hc]
    simpa [hc] using refill_stops s
  · rw [exec_nextbyte_emit hf hs hc]
    simpa [hc] using emitByte_stops hc

theorem exec_advance_stops {s : State} (hf : s.fatal = false) (hs : s.gstate ≠ .uninitialized) :
    StopsExactlyIf (s.triple = none ∨ s.ctxG = none) (exec .advance s) := by
  rw [exec_advance_started hf hs]
  exact advanceBlock_stops s

/-- A generator command that is not started, or that finds the generator Uninitialized, answers a next state. -/
theorem exec_generator_answers {i : Instr} (hi : i.isGenerator = true) {s : State}
    (h : s.fatal = true ∨ s.gstate = .uninitialized) : ∃ t, exec i s = .next t := by
  cases hf : s.fatal with
  | true => exact ⟨s, exec_generator_fatal hi hf⟩
  | false =>
    have hu : s.gstate = .uninitialized := by simpa [hf] using h
    obtain ⟨u, -, -, hu, -⟩ := exec_generator_ready hi ((lazyInit_frame s).fatal.trans hf) (lazyInit_ready hu)
    exact ⟨u, (exec_generator_lazyInit hi hf).trans hu⟩

/-- Settles O13: where each of the two commands stops, and that no other does. -/
theorem noValueIsNeverRead : Obligations.NoValueIsNeverRead := by
  refine ⟨fun s hf hs => ⟨(exec_advance_stops hf hs).fault_iff, (exec_nextbyte_stops hf hs).fault_iff⟩,
    fun s i hw => ?_⟩
  cases hi : i.isGenerator with
  | false => exact .inl (exec_answers_of_not_generator hw hi s)
  | true =>
    by_cases h : s.fatal = true ∨ s.gstate = .uninitialized
    · exact .inl (exec_generator_answers hi h)
    · obtain ⟨hf, hs⟩ : s.fatal = false ∧ s.gstate ≠ .uninitialized := by simpa using h
      obtain rfl | rfl | rfl := isGenerator_cases hi
      · exact .inl ⟨s, exec_ginit_started hs⟩
      · exact (exec_advance_stops hf hs).next_or_fault.imp_right (⟨·, hf, hs, .inl rfl⟩)
      · exact (exec_nextbyte_stops hf hs).next_or_fault.imp_right (⟨·, hf, hs, .inr rfl⟩)

/-! ### States the host cannot tell apart -/

theorem State.SameHostView.trans {s t u : State} (h : s.SameHostView t) (h' : t.SameHostView u) :
    s.SameHostView u where
  keyin := h.keyin.trans h'.keyin
  keyinMask := h.keyinMask.trans h'.keyinMask
  din := h.din.trans h'.din
  dout := h.dout.trans h'.dout
  byteout := h.byteout.trans h'.byteout
  ctxU := h.ctxU.trans h'.ctxU
  fatal := h.fatal.trans h'.fatal
  cause := h.cause.trans h'.cause
  returned := h.returned.trans h'.returned

theorem State.SameHostView.symm {s t : State} (h : s.SameHostView t) : t.SameHostView s :=
  ⟨h.keyin.symm, h.keyinMask.symm, h.din.symm, h.dout.symm, h.byteout.symm, h.ctxU.symm, h.fatal.symm, h.cause.symm,
    h.returned.symm⟩

/-- A generator command that leaves BYTEOUT is invisible to the host (60 R239). -/
theorem GeneratorFrame.sameHostView {s t : State} (h : GeneratorFrame s t) (hb : t.byteout = s.byteout) :
    t.SameHostView s :=
  ⟨h.keyin, h.keyinMask, h.din, h.dout, hb, h.ctxU, h.fatal, h.cause, h.returned⟩

/-- Two outcomes that, where both are next states, are states that the host cannot tell apart. -/
def SameViewResults (r r' : Result) : Prop :=
  ∀ t t', r = .next t → r' = .next t' → t.SameHostView t'

theorem sameViewResults_next {t t' : State} (h : t.SameHostView t') : SameViewResults (.next t) (.next t') := by
  rintro _ _ ⟨⟩ ⟨⟩
  exact h

theorem State.SameHostView.startCommand {body : State → Result} {s s' : State} (h : s.SameHostView s')
    (hb : SameViewResults (body s) (body s')) :
    SameViewResults (startCommand body s) (startCommand body s') := by
  cases hf : s.fatal with
  | true =>
    rw [startCommand_fatal hf, startCommand_fatal (h.fatal.symm.trans hf)]
    exact sameViewResults_next h
  | false =>
    rw [startCommand_running hf, startCommand_running (h.fatal.symm.trans hf)]
    exact hb

theorem State.SameHostView.raiseFatal {s s' : State} (h : s.SameHostView s') (c : Cause) :
    (raiseFatal c s).SameHostView (raiseFatal c s') :=
  { h with fatal := rfl, cause := rfl }

theorem State.SameHostView.setKeyCommand {s s' : State} (h : s.SameHostView s') :
    SameViewResults (setKeyCommand s) (setKeyCommand s') := by
  by_cases hm : s.keyinMask = 0xFFFFFFFF#32
  · rw [setKeyCommand_complete hm, setKeyCommand_complete (h.keyinMask ▸ hm)]
    exact sameViewResults_next { h with keyin := rfl, keyinMask := rfl, ctxU := by rw [h.keyin] }
  · rw [setKeyCommand_incomplete hm, setKeyCommand_incomplete (h.keyinMask ▸ hm)]
    exact sameViewResults_next (h.raiseFatal .keySize)

theorem State.SameHostView.blockCommand {s s' : State} (h : s.SameHostView s') (f : Context → Block → Block) :
    SameViewResults (blockCommand f s) (blockCommand f s') := by
  cases hc : s.ctxU with
  | none =>
    rw [blockCommand_unkeyed hc, blockCommand_unkeyed (h.ctxU.symm.trans hc)]
    exact sameViewResults_next (h.raiseFatal .notKeyed)
  | some c =>
    rw [blockCommand_keyed hc, blockCommand_keyed (h.ctxU.symm.trans hc)]
    exact sameViewResults_next { h with dout := by rw [h.din] }

/-- What a host read returns is a function of what the host can tell (10 R28). -/
theorem State.SameHostView.hostReadByte {s s' : State} (h : s.SameHostView s') (a : HostAddr) :
    hostReadByte s a = hostReadByte s' a := by
  simp only [Machine.hostReadByte, statusByte, State.keyedU, h.din, h.dout, h.byteout, h.ctxU, h.fatal, h.cause]

theorem State.SameHostView.hostRead {s s' : State} (h : s.SameHostView s') (a : HostAddr) :
    SameViewResults (hostRead a s) (hostRead a s') :=
  sameViewResults_next { h with returned := by simp [h.returned, h.hostReadByte a] }

theorem State.SameHostView.writeRegister {s s' : State} (h : s.SameHostView s') (a : HostAddr) (v : Byte) :
    (writeRegister a v s).SameHostView (writeRegister a v s') := by
  simp only [Machine.writeRegister]
  split_ifs
  · exact { h with keyin := by simp [h.keyin], keyinMask := by simp [h.keyinMask] }
  · exact { h with din := by simp [h.din] }
  · exact h

theorem State.SameHostView.hostWrite {s s' : State} (h : s.SameHostView s') {a : HostAddr} (ha : a ≠ 0x40#7)
    (v : Byte) : SameViewResults (hostWrite a v s) (hostWrite a v s') := by
  rw [hostWrite_register ha, hostWrite_register ha, ← h.fatal]
  split_ifs
  · exact sameViewResults_next h
  · exact sameViewResults_next (h.writeRegister a v)

theorem State.SameHostView.exec_generator {s s' : State} (h : s.SameHostView s') {i : Instr}
    (hi : i.isGenerator = true) (hn : i ≠ .nextbyte) : SameViewResults (exec i s) (exec i s') := by
  intro t t' ht ht'
  have hs : t.SameHostView s := (exec_generator_frame hi ht).sameHostView (exec_generator_byteout hi hn ht)
  have hs' : t'.SameHostView s' := (exec_generator_frame hi ht').sameHostView (exec_generator_byteout hi hn ht')
  exact (hs.trans h).trans hs'.symm

theorem State.SameHostView.exec {s s' : State} (h : s.SameHostView s') {i : Instr} (hw : i.wellFormed = true)
    (hn : i ≠ .nextbyte) : SameViewResults (exec i s) (exec i s') := by
  cases i with
  | setkey => exact h.startCommand h.setKeyCommand
  | enc => exact h.startCommand (h.blockCommand _)
  | dec => exact h.startCommand (h.blockCommand _)
  | ginit => exact h.exec_generator rfl hn
  | advance => exact h.exec_generator rfl hn
  | nextbyte => exact absurd rfl hn
  | illegal op => exact h.startCommand (sameViewResults_next (h.raiseFatal .illegalCommand))
  | isinit d => exact h.hostRead 0x41#7
  | rdbyte d => exact h.hostRead 0x42#7
  | rd a d => exact h.hostRead a
  | wr a d => exact h.hostWrite (by simpa [Instr.wellFormed] using hw) d

/-- Settles O59, by induction on the instructions. -/
theorem onlyNextbyteReveals : Obligations.OnlyNextbyteReveals := by
  intro is
  induction is with
  | nil =>
    rintro s s' _ _ - h ⟨⟩ ⟨⟩
    exact h
  | cons i is ih =>
    intro s s' t t' his h ht ht'
    obtain ⟨⟨hw, hn⟩, his⟩ := List.forall_mem_cons.mp his
    obtain ⟨v, hv, ht⟩ := andThen_eq_next.mp ht
    obtain ⟨v', hv', ht'⟩ := andThen_eq_next.mp ht'
    exact ih v v' t t' his (h.exec hw hn v v' hv hv') ht ht'

theorem State.SameHostView.outsideStore {s s' : State} (h : s.SameHostView s') (c : Option (List Byte)) :
    SameViewResults (outsideStore c s) (outsideStore c s') := by
  intro t t' ht ht'
  unfold Machine.outsideStore at ht ht'
  split_ifs at ht ht'
  cases ht
  cases ht'
  exact { h with }

/-- RESET gives both states the same registers, and the results stay (10 R40). -/
theorem State.SameHostView.resetEngine {s s' : State} (h : s.SameHostView s') :
    (resetEngine s).SameHostView (resetEngine s') :=
  ⟨rfl, rfl, rfl, rfl, rfl, rfl, rfl, rfl, h.returned⟩

theorem decodeWord_ne_nextbyte {w : BusWord} (h : w ≠ 0xC012#16) : decodeWord w ≠ .nextbyte := fun hd =>
  h (by rw [← encode_decodeWord w, hd]; rfl)

theorem State.SameHostView.performItem {s s' : State} (h : s.SameHostView s') {it : Item}
    (hn : it ≠ .word 0xC012#16) : SameViewResults (performItem it s) (performItem it s') := by
  cases it with
  | word w => exact h.exec (decodeWord_wellFormed w) (decodeWord_ne_nextbyte fun hw => hn (by rw [hw]))
  | reset => exact sameViewResults_next h.resetEngine
  | outsideStore c => exact h.outsideStore c

theorem State.SameHostView.advancePos {s s' : State} (h : s.SameHostView s') :
    (advancePos s).SameHostView (advancePos s') := { h with }

/-- Settles O60: the two steps perform the same item. -/
theorem everyOtherStepKeepsTheHostView : Obligations.EveryOtherStepKeepsTheHostView := by
  intro s s' u u' h hitem hn hu hu'
  cases hit : nextItem s with
  | none =>
    have hit' : nextItem s' = none := hitem.symm.trans hit
    simp only [step, hit, hit'] at hu hu'
    exact sameViewResults_next h u u' hu hu'
  | some it =>
    rw [step_of_nextItem hit] at hu
    rw [step_of_nextItem (hitem.symm.trans hit)] at hu'
    obtain ⟨t, ht, ⟨⟩⟩ := andThen_eq_next.mp hu
    obtain ⟨t', ht', ⟨⟩⟩ := andThen_eq_next.mp hu'
    have hne : it ≠ .word 0xC012#16 := fun he => hn (hit.trans (by rw [he]))
    exact (h.performItem hne t t' ht ht').advancePos

end Sys2Proof.Machine
end

section
/-! PROOFS. The statements about the host's address space, the counter's bytes, the durable record and StoreWrite
(spec/20_memory.md): what a read of each address answers and what a write to each does, the key bytes one write after
the other, the conversions between bytes and the counter or the record, and the StoreWrite outcomes that each part of a
generator command takes (`TakesOutcomes`). -/

namespace Sys2Proof.Machine

/-! ### Host reads -/

theorem exec_rd (a : HostAddr) (d : Byte) (s : State) :
    exec (.rd a d) s = .next { s with returned := s.returned ++ [hostReadByte s a] } := rfl

theorem hostReadByte_keyin (s : State) {n : Nat} (h : n < 32) : hostReadByte s (BitVec.ofNat 7 n) = 0x00#8 := by
  have hn : (BitVec.ofNat 7 n).toNat = n := by simp; omega
  simp only [hostReadByte, hn]
  rw [if_pos h]

theorem hostReadByte_din (s : State) {n : Nat} (h : n < 16) :
    hostReadByte s (BitVec.ofNat 7 (0x20 + n)) = s.din[n] := by
  have hn : (BitVec.ofNat 7 (0x20 + n)).toNat = 0x20 + n := by simp; omega
  simp only [hostReadByte, hn]
  rw [if_neg (by omega), dif_pos (by omega)]
  simp

theorem hostReadByte_dout (s : State) {n : Nat} (h : n < 16) :
    hostReadByte s (BitVec.ofNat 7 (0x30 + n)) = s.dout[n] := by
  have hn : (BitVec.ofNat 7 (0x30 + n)).toNat = 0x30 + n := by simp; omega
  simp only [hostReadByte, hn]
  rw [if_neg (by omega), dif_neg (by omega), dif_pos (by omega)]
  simp

/-- Above BYTEOUT the address space holds nothing (20 R61). -/
theorem hostReadByte_unused (s : State) {n : Nat} (h : n < 61) :
    hostReadByte s (BitVec.ofNat 7 (0x43 + n)) = 0x00#8 := by
  have hn : (BitVec.ofNat 7 (0x43 + n)).toNat = 0x43 + n := by simp; omega
  simp only [hostReadByte, hn]
  rw [if_neg (by omega), dif_neg (by omega), dif_neg (by omega), if_neg (by omega), if_neg (by omega),
    if_neg (by omega)]

/-- STATUS with each field shifted to its place (10 R28, 20 R61). -/
theorem statusByte_eq_or (s : State) :
    statusByte s = (s.cause.setWidth 8 <<< 4) ||| ((BitVec.ofBool s.fatal).setWidth 8 <<< 1)
      ||| (BitVec.ofBool s.keyedU).setWidth 8 := by
  have fields : ∀ (c : BitVec 4) (f k : Bool), c ++ 0#2 ++ BitVec.ofBool f ++ BitVec.ofBool k =
      (c.setWidth 8 <<< 4) ||| ((BitVec.ofBool f).setWidth 8 <<< 1) ||| (BitVec.ofBool k).setWidth 8 := by decide
  exact fields s.cause s.fatal s.keyedU

/-- Settles O15, range by range: every read is `exec_rd`. -/
theorem hostReadTable : Obligations.HostReadTable := by
  intro s d
  simp only [exec_rd]
  refine ⟨fun n => ?_, fun n => ?_, fun n => ?_, rfl, ?_, rfl, fun n => ?_, rfl, rfl⟩
  · rw [hostReadByte_keyin s n.isLt]
  · rw [hostReadByte_din s n.isLt]; rfl
  · rw [hostReadByte_dout s n.isLt]; rfl
  · rw [← statusByte_eq_or]; rfl
  · rw [hostReadByte_unused s n.isLt]

/-! ### Host writes -/

theorem exec_wr_running {a : HostAddr} {s : State} (hf : s.fatal = false) (ha : a ≠ 0x40#7) (v : Byte) :
    exec (.wr a v) s = .next (writeRegister a v s) := by
  have hw : exec (.wr a v) s = .next (if s.fatal then s else writeRegister a v s) := hostWrite_register ha v s
  simpa [hf] using hw

theorem exec_wr_fatal {s : State} (hf : s.fatal = true) (a : HostAddr) (v : Byte) : exec (.wr a v) s = .next s := by
  simp [exec, execWr, hostWrite, hf]

theorem ofNat_ne_cmd {n : Nat} (h : n < 0x40) : BitVec.ofNat 7 n ≠ 0x40#7 := by
  intro he
  have hn : (BitVec.ofNat 7 n).toNat = 0x40 := by rw [he]; rfl
  simp at hn
  omega

theorem exec_wr_keyin {s : State} (hf : s.fatal = false) (n : Fin 32) (v : Byte) :
    exec (.wr (BitVec.ofNat 7 n) v) s = .next (writeKeyin n n.isLt v s) := by
  rw [exec_wr_running hf (ofNat_ne_cmd (by omega)), writeRegister_keyin n.isLt]

theorem exec_wr_din {s : State} (hf : s.fatal = false) (n : Fin 16) (v : Byte) :
    exec (.wr (BitVec.ofNat 7 (0x20 + n)) v) s = .next (writeDin n n.isLt v s) := by
  rw [exec_wr_running hf (ofNat_ne_cmd (by omega)), writeRegister_din n.isLt]

/-- A register of bytes after one byte is stored. -/
theorem set_getElem_fin {m : Nat} (x : Vector Byte m) (n j : Fin m) (v : Byte) :
    (x.set n v)[j] = if j = n then v else x[j] := by
  simp [Vector.getElem_set, Fin.ext_iff, eq_comm]

/-- The mask after one of its bits is set (10 R22). -/
theorem mask_set_getLsbD (m : BitVec 32) (n j : Fin 32) :
    (m ||| (1#32 <<< n.val)).getLsbD j = (decide (j = n) || m.getLsbD j) := by
  rw [← BitVec.twoPow_eq, BitVec.getLsbD_or, BitVec.getLsbD_twoPow, Bool.or_comm]
  simp [Fin.ext_iff, eq_comm]

/-- Settles O18, address range by address range. -/
theorem hostWriteTable : Obligations.HostWriteTable := by
  refine fun s v => ⟨fun hf a => exec_wr_fatal hf a v, fun hf => ⟨fun n => ?_, fun n => ?_, exec_wr_cmd v s,
    fun a ha hc => exec_wr_ignored ha hc v s⟩⟩
  · exact ⟨_, exec_wr_keyin hf n v, fun j => set_getElem_fin s.keyin n j v,
      fun j => mask_set_getLsbD s.keyinMask n j, rfl⟩
  · exact ⟨_, exec_wr_din hf n v, fun j => set_getElem_fin s.din n j v, rfl⟩

/-! ### The key bytes one write after the other -/

/-- The state after the bytes of `k` at the indices `order` are stored in KEYIN, one after the other (10 R22). -/
def writeKeyBytes (k : Key) (order : List (Fin 32)) (s : State) : State :=
  order.foldl (fun s (i : Fin 32) => writeKeyin i i.isLt k[i] s) s

/-- The host's writes of those bytes lead there (20 R62, 30 R99). -/
theorem execAll_writeKeyBytes (k : Key) (rest : List Instr) (order : List (Fin 32)) {s : State}
    (hf : s.fatal = false) :
    execAll (order.map (fun i => .wr (BitVec.ofNat 7 i.val) k[i]) ++ rest) s
      = execAll rest (writeKeyBytes k order s) := by
  induction order generalizing s with
  | nil => rfl
  | cons i order ih =>
    rw [List.map_cons, List.cons_append, execAll, exec_wr_keyin hf, andThen_next]
    exact ih (s := writeKeyin i i.isLt k[i] s) hf

theorem writeKeyBytes_frame (k : Key) (order : List (Fin 32)) (s : State) :
    writeKeyBytes k order s = { s with
      keyin := (writeKeyBytes k order s).keyin, keyinMask := (writeKeyBytes k order s).keyinMask } := by
  induction order generalizing s with
  | nil => rfl
  | cons i order ih => exact ih (writeKeyin i i.isLt k[i] s)

theorem writeKeyBytes_keyin (k : Key) (order : List (Fin 32)) (s : State) (j : Fin 32) :
    (writeKeyBytes k order s).keyin[j] = if j ∈ order then k[j] else s.keyin[j] := by
  induction order generalizing s with
  | nil => rfl
  | cons i order ih =>
    refine (ih (writeKeyin i i.isLt k[i] s)).trans ?_
    rw [writeKeyin_keyin, set_getElem_fin]
    by_cases hj : j ∈ order <;> by_cases hi : j = i <;> simp [hj, hi]

theorem writeKeyBytes_keyinMask (k : Key) (order : List (Fin 32)) (s : State) (j : Fin 32) :
    (writeKeyBytes k order s).keyinMask.getLsbD j = (decide (j ∈ order) || s.keyinMask.getLsbD j) := by
  induction order generalizing s with
  | nil => simp [writeKeyBytes]
  | cons i order ih =>
    refine (ih (writeKeyin i i.isLt k[i] s)).trans ?_
    rw [writeKeyin_keyinMask, mask_set_getLsbD]
    by_cases hj : j ∈ order <;> simp [hj]

theorem fullMask_getLsbD (i : Fin 32) : (0xFFFFFFFF#32).getLsbD i = true :=
  (BitVec.getLsbD_allOnes (v := 32)).trans (by simp)

theorem writeKeyBytes_complete (k : Key) {order : List (Fin 32)} (h : ∀ i, i ∈ order) (s : State) :
    (writeKeyBytes k order s).keyinMask = 0xFFFFFFFF#32 := by
  apply BitVec.eq_of_getLsbD_eq
  intro j hj
  rw [writeKeyBytes_keyinMask k order s ⟨j, hj⟩, fullMask_getLsbD ⟨j, hj⟩]
  simp [h]

theorem writeKeyBytes_incomplete (k : Key) {order : List (Fin 32)} {i : Fin 32} (h : i ∉ order) {s : State}
    (hm : s.keyinMask = 0#32) : (writeKeyBytes k order s).keyinMask ≠ 0xFFFFFFFF#32 := by
  intro hc
  have hi := writeKeyBytes_keyinMask k order s i
  rw [hc, hm, fullMask_getLsbD] at hi
  simp [h] at hi

theorem exec_setkey_running {s : State} (hf : s.fatal = false) : exec .setkey s = setKeyCommand s :=
  startCommand_running hf

/-- Settles O31: SETKEY finds the bytes and the mask that `writeKeyBytes` leaves. -/
theorem keyBytesInAnyOrder : Obligations.KeyBytesInAnyOrder := by
  intro s k order hf
  have hframe := writeKeyBytes_frame k order s
  have hrun : execAll (order.map (fun i => .wr (BitVec.ofNat 7 i.val) k[i]) ++ [.setkey]) s
      = andThen (setKeyCommand (writeKeyBytes k order s)) .next := by
    rw [execAll_writeKeyBytes k _ order hf, execAll, exec_setkey_running (by rw [hframe]; exact hf)]
    rfl
  refine ⟨fun hall => ?_, fun hm ⟨i, hi⟩ => ?_⟩
  · have hkey : (writeKeyBytes k order s).keyin = k :=
      Vector.ext fun j hj => (writeKeyBytes_keyin k order s ⟨j, hj⟩).trans (by simp [hall])
    refine hrun.trans ?_
    rw [setKeyCommand_complete (writeKeyBytes_complete k hall s), andThen_next, hkey, hframe]
  · rw [setKeyCommand_incomplete (writeKeyBytes_incomplete k hi hm)] at hrun
    exact ⟨_, hrun, rfl, rfl, by rw [raiseFatal_ctxU, hframe]⟩

/-! ### The counter's bytes -/

theorem ctrByte_toNat (c : Counter) (i : Nat) : (ctrByte c i).toNat = c.toNat / 2 ^ (8 * i) % 256 := by
  simp [ctrByte, Nat.shiftRight_eq_div_pow]

/-- A counter is determined by its bytes. -/
theorem ctrBytes_injective : Function.Injective ctrBytes := by
  intro c c' h
  apply BitVec.eq_of_getLsbD_eq
  intro j hj
  have hbyte : ctrByte c (j / 8) = ctrByte c' (j / 8) := by
    rw [← ctrBytes_getElem c _ (by omega), h, ctrBytes_getElem]
  have hbit := congrArg (BitVec.getLsbD · (j % 8)) hbyte
  simpa [ctrByte, show j % 8 < 8 by omega, show 8 * (j / 8) + j % 8 = j by omega] using hbit

theorem littleEndian_lt (bs : List Byte) : littleEndian bs < 256 ^ bs.length := by
  induction bs with
  | nil => simp [littleEndian]
  | cons b bs ih =>
    have hb : b.toNat < 256 := b.isLt
    simp only [littleEndian, List.length_cons, Nat.pow_succ]
    omega

/-- Byte `i` of the number that a byte string stands for. -/
theorem littleEndian_byte (bs : List Byte) (i : Nat) (h : i < bs.length) :
    littleEndian bs / 256 ^ i % 256 = bs[i].toNat := by
  induction bs generalizing i with
  | nil => simp at h
  | cons b bs ih =>
    have hb : b.toNat < 256 := b.isLt
    cases i with
    | zero => simp only [littleEndian, List.getElem_cons_zero]; omega
    | succ i =>
      have hdiv : (b.toNat + 256 * littleEndian bs) / 256 = littleEndian bs := by omega
      rw [List.getElem_cons_succ, ← ih i (by simpa using h), littleEndian, Nat.pow_succ',
        ← Nat.div_div_eq_div_mul, hdiv]

theorem littleEndian_ofFn {n : Nat} (f : Fin n → Byte) :
    littleEndian (List.ofFn f) = ∑ i : Fin n, (f i).toNat * 2 ^ (8 * i.val) := by
  induction n with
  | zero => simp [littleEndian]
  | succ n ih =>
    rw [List.ofFn_succ, littleEndian, ih, Fin.sum_univ_succ, Finset.mul_sum]
    congr 1
    · simp
    · refine Finset.sum_congr rfl fun i _ => ?_
      rw [Fin.val_succ, Nat.mul_succ, Nat.pow_add]
      ring

theorem ctrFromBytes_toNat (b : Block) : (ctrFromBytes b).toNat = littleEndian b.toList := by
  have hlt : littleEndian b.toList < 256 ^ 16 := by simpa using littleEndian_lt b.toList
  rw [ctrFromBytes_eq, BitVec.toNat_ofNat, Nat.mod_eq_of_lt (by omega)]

theorem ctrBytes_ctrFromBytes (b : Block) : ctrBytes (ctrFromBytes b) = b := by
  ext1 i hi
  apply BitVec.eq_of_toNat_eq
  rw [ctrBytes_getElem, ctrByte_toNat, ctrFromBytes_toNat, Nat.pow_mul, littleEndian_byte _ _ (by simpa using hi),
    Vector.getElem_toList]

theorem ctrFromBytes_ctrBytes (c : Counter) : ctrFromBytes (ctrBytes c) = c :=
  ctrBytes_injective (ctrBytes_ctrFromBytes _)

theorem ctr_toNat_eq_words (c : Counter) : c.toNat = (ctrHigh c).toNat * 2 ^ 64 + (ctrLow c).toNat := by
  have hc : c.toNat < 2 ^ 128 := c.isLt
  simp only [ctrHigh, ctrLow, BitVec.extractLsb'_toNat, Nat.shiftRight_eq_div_pow]
  omega

/-- Settles O36, from the byte of a number and the sum of the bytes. -/
theorem counterConversion : Obligations.CounterConversion := by
  refine ⟨fun c i => ⟨ctrBytes_getElem c i i.isLt, ctrByte_toNat c i⟩, fun b => ?_, ctrFromBytes_ctrBytes,
    ctrBytes_ctrFromBytes, ctr_toNat_eq_words⟩
  have hb : b.toList = List.ofFn fun i : Fin 16 => b[i] := by
    rw [← Vector.toList_ofFn]
    exact congrArg Vector.toList (Vector.ext fun i hi => by simp)
  rw [ctrFromBytes_toNat, hb, littleEndian_ofFn]

/-! ### The record -/

theorem ctrByte_low (c : Counter) {i : Nat} (h : i < 8) : ctrByte c i = (ctrLow c).extractLsb' (8 * i) 8 := by
  rw [ctrLow, BitVec.extractLsb'_extractLsb'_of_le (by omega), ctrByte]

theorem ctrByte_high (c : Counter) {i : Nat} (h : i < 8) :
    ctrByte c (8 + i) = (ctrHigh c).extractLsb' (8 * i) 8 := by
  apply BitVec.eq_of_getLsbD_eq
  intro j hj
  simp [ctrByte, ctrHigh, hj, show 8 * i + j < 64 by omega, show 8 * (8 + i) + j = 64 + (8 * i + j) by omega]

theorem serializeRecord_key (t : Triple) {i : Nat} (h : i < 32) : (serializeRecord t)[i]? = some t.key[i] := by
  rw [serializeRecord, List.append_assoc, List.getElem?_append_left (by simpa using h)]
  simp [h]

theorem serializeRecord_ctr (t : Triple) {i : Nat} (h : i < 16) :
    (serializeRecord t)[32 + i]? = some (ctrByte t.ctr i) := by
  rw [serializeRecord, List.append_assoc, List.getElem?_append_right (by simp),
    List.getElem?_append_left (by simpa using h)]
  simp [h]

theorem serializeRecord_block (t : Triple) {i : Nat} (h : i < 16) :
    (serializeRecord t)[48 + i]? = some t.block[i] := by
  rw [serializeRecord, List.getElem?_append_right (by simp)]
  simp [h]

/-- Settles O37, field by field; the counter's bytes are those of its two words. -/
theorem recordLayout : Obligations.RecordLayout := by
  refine fun t => ⟨serializeRecord_length t, fun i => serializeRecord_key t i.isLt, fun i => ?_, fun i => ?_,
    fun i => serializeRecord_block t i.isLt⟩
  · rw [serializeRecord_ctr t (by omega), ctrByte_low _ i.isLt]
  · rw [← ctrByte_high _ i.isLt, ← serializeRecord_ctr t (by omega), ← Nat.add_assoc]

theorem Triple.ext_fields {t t' : Triple} (hk : t.key = t'.key) (hc : t.ctr = t'.ctr) (hb : t.block = t'.block) :
    t = t' := by
  cases t
  cases t'
  simp_all

/-- Reading the fields of a serialised record gives the triple (20 R65). -/
theorem recordFields_serializeRecord (t : Triple) (h : (serializeRecord t).length = 64) :
    recordFields (serializeRecord t) h = t := by
  apply Triple.ext_fields
  · ext1 i hi
    exact (recordFields_key_getElem _ h i hi).trans (List.getElem_of_getElem? (serializeRecord_key t hi)).2
  · have hctr : (Vector.ofFn fun i : Fin 16 => (serializeRecord t)[32 + i.val]) = ctrBytes t.ctr := by
      ext1 i hi
      rw [Vector.getElem_ofFn, ctrBytes_getElem]
      exact (List.getElem_of_getElem? (serializeRecord_ctr t hi)).2
    rw [recordFields_ctr, hctr, ctrFromBytes_ctrBytes]
  · ext1 i hi
    exact (recordFields_block_getElem _ h i hi).trans (List.getElem_of_getElem? (serializeRecord_block t hi)).2

/-- Serialising the fields of a record of 64 bytes gives the record (20 R64, R68). -/
theorem serializeRecord_recordFields (s : List Byte) (h : s.length = 64) :
    serializeRecord (recordFields s h) = s := by
  apply List.ext_getElem?
  intro i
  by_cases hk : i < 32
  · rw [serializeRecord_key _ hk, recordFields_key_getElem, List.getElem?_eq_getElem]
  · by_cases hc : i < 48
    · obtain ⟨j, rfl⟩ := Nat.exists_eq_add_of_le (show 32 ≤ i by omega)
      have hj : j < 16 := by omega
      rw [serializeRecord_ctr _ hj, recordFields_ctr, ← ctrBytes_getElem _ j hj, ctrBytes_ctrFromBytes,
        Vector.getElem_ofFn, List.getElem?_eq_getElem]
    · by_cases hb : i < 64
      · obtain ⟨j, rfl⟩ := Nat.exists_eq_add_of_le (show 48 ≤ i by omega)
        have hj : j < 16 := by omega
        rw [serializeRecord_block _ hj, recordFields_block_getElem, List.getElem?_eq_getElem]
      · rw [List.getElem?_eq_none (by simp; omega), List.getElem?_eq_none (by omega)]

theorem parseRecord_serializeRecord (p : Params) (t : Triple) :
    parseRecord p (some (serializeRecord t)) = if recordConsistent p t then some t else none := by
  have hl := serializeRecord_length t
  simp only [parseRecord]
  rw [dif_pos hl, recordFields_serializeRecord]

/-- Settles O38, from the two round trips between record and fields. -/
theorem parseRecordIsAllOrNothing : Obligations.ParseRecordIsAllOrNothing := by
  refine ⟨parseRecord_serializeRecord, fun p c t h => ?_, fun _ => rfl, fun _ => rfl, fun _ => rfl,
    fun p b hb => dif_neg hb⟩
  obtain ⟨b, hb, rfl, rfl, -⟩ := parseRecord_some h
  rw [serializeRecord_recordFields]

/-! ### StoreWrite -/

theorem storeWrite_of_outcome (rec : List Byte) {s : State} {w : WriteOutcome} (h : nextOutcome s = w) :
    storeWrite rec s = (w == .ok, { s with
      store := storeAfter s.params rec s.store w, draws := s.draws + 1, outcomesIn := s.outcomesIn.drop 1 }) := by
  rw [storeWrite, h]

/-- Settles O39, outcome by outcome. -/
theorem storeWriteOutcomes : Obligations.StoreWriteOutcomes := by
  refine fun s rec => ⟨fun h => storeWrite_of_outcome rec h, fun h => storeWrite_of_outcome rec h, fun h hp => ?_,
    fun h hp => ?_⟩ <;>
  · rw [storeWrite_of_outcome rec h]
    simp [storeAfter, hp]

/-! ### The outcomes that an instruction takes -/

/-- From `s` to `t` the outcomes `os` are taken and no others: they use up as many lined-up ones, they are those as far
as these reach, and the store changes only where there is one (20 R67). -/
structure TakesOutcomes (s t : State) (os : List WriteOutcome) : Prop where
  usedUp : t.outcomesIn = s.outcomesIn.drop os.length
  linedUp : ∀ j, j < os.length → j < s.outcomesIn.length → os[j]? = s.outcomesIn[j]?
  noWrite : os = [] → t.store = s.store

theorem TakesOutcomes.nil {s t : State} (ho : t.outcomesIn = s.outcomesIn) (hs : t.store = s.store) :
    TakesOutcomes s t [] :=
  ⟨ho, fun _ h => absurd h (Nat.not_lt_zero _), fun _ => hs⟩

theorem TakesOutcomes.trans {s t u : State} {os os' : List WriteOutcome} (h : TakesOutcomes s t os)
    (h' : TakesOutcomes t u os') : TakesOutcomes s u (os ++ os') where
  usedUp := by rw [h'.usedUp, h.usedUp, List.drop_drop, List.length_append]
  linedUp j hj hlen := by
    by_cases hlt : j < os.length
    · rw [List.getElem?_append_left hlt, h.linedUp j hlt hlen]
    · rw [List.length_append] at hj
      have hlater := h'.linedUp (j - os.length) (by omega) (by rw [h.usedUp, List.length_drop]; omega)
      rw [List.getElem?_append_right (by omega), hlater, h.usedUp, List.getElem?_drop,
        show os.length + (j - os.length) = j by omega]
  noWrite he := by
    obtain ⟨rfl, rfl⟩ := List.append_eq_nil_iff.mp he
    exact (h'.noWrite rfl).trans (h.noWrite rfl)

/-- A StoreWrite takes one outcome: the next one (20 R67). -/
theorem TakesOutcomes.single {s t : State} (ho : t.outcomesIn = s.outcomesIn.drop 1) :
    TakesOutcomes s t [nextOutcome s] where
  usedUp := ho
  linedUp j hj hlen := by
    obtain rfl : j = 0 := by simpa using hj
    simp [nextOutcome, List.getElem?_eq_getElem hlen]
  noWrite h := absurd h (List.cons_ne_nil _ _)

/-- The outcomes that lazy initialisation takes: the one of a fresh synthesis (42 R187). -/
theorem lazyInit_takes (s : State) : TakesOutcomes s (lazyInit s)
    (if s.gstate = .uninitialized ∧ loadState s = none then [nextOutcome (synthesize s).2] else []) := by
  by_cases hu : s.gstate = .uninitialized
  · rw [lazyInit_uninitialized hu]
    cases hl : loadState s with
    | some t =>
      have hload : TakesOutcomes s (finishInit t (adopt t .loaded s)) [] := .nil rfl rfl
      simpa [generatorInit, hl] using hload
    | none =>
      have hsyn : TakesOutcomes s (synthesize s).2 [] := .nil rfl rfl
      simpa [generatorInit, hl, hu] using hsyn.trans (.single rfl)
  · rw [lazyInit_started hu, if_neg fun h => hu h.1]
    exact .nil rfl rfl

theorem advanceBlock_takes {s u : State} (h : advanceBlock s = .next u) : TakesOutcomes s u [nextOutcome s] := by
  obtain ⟨t, g, ht, hg⟩ := advanceBlock_next h
  obtain ⟨t', -, -, -, hu⟩ := advanceBlock_some ht hg
  cases hu.symm.trans h
  exact .single rfl

theorem emitByte_takes {s u : State} (h : emitByte s = .next u) : TakesOutcomes s u [] := by
  obtain ⟨t, c, hc, -, -, rfl⟩ := emitByte_next h
  exact .nil rfl rfl

/-- After its lazy initialisation a command takes one outcome if it advances, else none (42 R191 to R193). -/
theorem GeneratorMove.takes {i : Instr} {s t : State} (h : GeneratorMove i (lazyInit s) t) :
    TakesOutcomes (lazyInit s) t (if s.advances i then [nextOutcome (lazyInit s)] else []) := by
  cases h with
  | init => exact .nil rfl rfl
  | advance ha => exact advanceBlock_takes ha
  | emit hc he => simpa [State.advances, hc] using emitByte_takes he
  | refill hc ha he => simpa [State.advances, hc] using (advanceBlock_takes ha).trans (emitByte_takes he)

theorem writeOutcomes_of_not_started {i : Instr} {s : State} (h : i.isGenerator = false ∨ s.fatal = true) :
    s.writeOutcomes i = [] := by
  obtain h | h := h <;> simp [State.writeOutcomes, h]

theorem writeOutcomes_of_started {i : Instr} {s : State} (hi : i.isGenerator = true) (hf : s.fatal = false) :
    s.writeOutcomes i =
      (if s.gstate = .uninitialized ∧ loadState s = none then [nextOutcome (synthesize s).2] else [])
        ++ (if s.advances i then [nextOutcome (lazyInit s)] else []) := by
  simp [State.writeOutcomes, hi, hf]

theorem exec_generator_takes {i : Instr} {s t : State} (hi : i.isGenerator = true) (h : exec i s = .next t) :
    TakesOutcomes s t (s.writeOutcomes i) := by
  obtain ⟨hf, rfl⟩ | ⟨hf, hm⟩ := exec_generator_cases hi h
  · rw [writeOutcomes_of_not_started (.inr hf)]
    exact .nil rfl rfl
  · rw [writeOutcomes_of_started hi hf]
    exact (lazyInit_takes s).trans hm.takes

/-- Only a generator command writes the store or takes an outcome (41 R160). -/
theorem Effect.keeps_store {i : Instr} {s t : State} (h : Effect s i t) (hg : i.isGenerator = false) :
    t.outcomesIn = s.outcomesIn ∧ t.store = s.store := by
  cases h with
  | generator hi => simp [hg] at hi
  | _ => exact ⟨rfl, rfl⟩

theorem exec_takes {i : Instr} {s t : State} (hw : i.wellFormed = true) (h : exec i s = .next t) :
    TakesOutcomes s t (s.writeOutcomes i) := by
  cases hg : i.isGenerator with
  | true => exact exec_generator_takes hg h
  | false =>
    obtain ⟨ho, hs⟩ := (exec_effect hw h).keeps_store hg
    rw [writeOutcomes_of_not_started (.inl hg)]
    exact .nil ho hs

/-- Settles O54: the outcomes of the initialisation, then those of the advance. -/
theorem writeOutcomesAreTheOnesTaken : Obligations.WriteOutcomesAreTheOnesTaken := by
  intro s t i hw _ h
  obtain ⟨hused, hlined, hnone⟩ := exec_takes hw h
  exact ⟨hused, hlined, hnone, writeOutcomes_of_not_started⟩

end Sys2Proof.Machine
end

section
/-! PROOFS. The statements about the encoding (spec/30_encoding.md) and the illegal command (R96): how a word is put
together from its fields and its bytes, then the statements, from these and the decoder on assembled words. -/

namespace Sys2Proof

/-! ### Words from their fields and from their bytes -/

theorem busWord_or_busWord (w w' : Bool) (a a' : HostAddr) (d d' : Byte) :
    busWord w a d ||| busWord w' a' d' = busWord (w || w') (a ||| a') (d ||| d') := by
  unfold busWord
  rw [← BitVec.ofBool_or_ofBool, ← BitVec.or_append, ← BitVec.or_append]

theorem setWidth_byte_eq_busWord (d : Byte) : d.setWidth 16 = busWord false 0x00#7 d := by
  rw [BitVec.setWidth_eq_append (by decide)]
  rfl

theorem setWidth_addr_shiftLeft_eq_busWord (a : HostAddr) : a.setWidth 16 <<< 8 = busWord false a 0x00#8 := by
  apply BitVec.eq_of_getLsbD_eq
  intro i hi
  simp only [busWord_getLsbD, BitVec.getLsbD_shiftLeft, BitVec.getLsbD_setWidth]
  by_cases h8 : i < 8
  · simp [h8]
  · by_cases h15 : i - 8 < 7
    · simp [h8, h15, hi, show i - 8 < 16 by omega]
    · simp [h8, h15, hi, BitVec.getLsbD_of_ge a (i - 8) (by omega)]

/-- The word of a read is `(a << 8) or d` (30 R91). -/
theorem or_fields_eq_busWord (a : HostAddr) (d : Byte) :
    (a.setWidth 16 <<< 8) ||| d.setWidth 16 = busWord false a d := by
  simp [setWidth_addr_shiftLeft_eq_busWord, setWidth_byte_eq_busWord, busWord_or_busWord]

/-- The top bit turns the word of a read into that of a write (30 R91). -/
theorem or_top_busWord (a : HostAddr) (d : Byte) : 0x8000#16 ||| busWord false a d = busWord true a d := by
  rw [show 0x8000#16 = busWord true 0x00#7 0x00#8 from rfl, busWord_or_busWord]
  simp

/-- The word of a write of `op` to CMD is `0xC000 or op` (30 R92). -/
theorem or_cmd_eq_busWord (op : Byte) : 0xC000#16 ||| op.setWidth 16 = busWord true 0x40#7 op := by
  rw [show 0xC000#16 = busWord true 0x40#7 0x00#8 from rfl, setWidth_byte_eq_busWord, busWord_or_busWord]
  simp

/-- A word is its high byte followed by its low byte (30 R91). -/
theorem highByte_append_lowByte (w : BusWord) : w.extractLsb' 8 8 ++ w.extractLsb' 0 8 = w :=
  (BitVec.extractLsb'_append_extractLsb'_eq_extractLsb' rfl).trans BitVec.extractLsb'_eq_self

theorem decode_bytes_of_word (w : BusWord) (rest : List Byte) :
    decode (w.extractLsb' 8 8 :: w.extractLsb' 0 8 :: rest) = .ok (decodeWord w, rest) := by
  rw [decode, highByte_append_lowByte]

/-! ### The statements -/

/-- Settles O1, constructor by constructor in `decodeWord_encode`. -/
theorem decodeOfEncode : Obligations.DecodeOfEncode := fun _ => decodeWord_encode

/-- Settles O2: the two round trips between words and well-formed terms. -/
theorem everyWordIsOneInstruction : Obligations.EveryWordIsOneInstruction := by
  intro w
  refine ⟨decodeWord_wellFormed w, encode_decodeWord w, ?_⟩
  rintro i hi rfl
  exact (decodeWord_encode hi).symm

/-- Settles O3: the assembled words are `busWord`, and the decoder answers by their fields. -/
theorem decodeFollowsTheTable : Obligations.DecodeFollowsTheTable := by
  intro a d
  simp only [or_fields_eq_busWord, or_top_busWord]
  refine ⟨decodeWord_read a d, fun ha => ?_, fun ha => ?_⟩
  · rw [decodeWord_write, if_neg ha]
  · rw [decodeWord_write, if_pos ha, decodeCommand]

/-- Settles O5: the two bytes make up the word, which decodes to its instruction. -/
theorem decodeReadsTheHighByteFirst : Obligations.DecodeReadsTheHighByteFirst := by
  refine ⟨fun i rest hi => ?_, rfl, fun _ => rfl⟩
  rw [decode_bytes_of_word, decodeWord_encode hi]

/-- Settles O4, by evaluation. -/
theorem writtenOutWordsDecode : Obligations.WrittenOutWordsDecode := by
  unfold Obligations.WrittenOutWordsDecode
  decide

end Sys2Proof

namespace Sys2Proof.Machine

theorem exec_illegal_running {s : State} (hf : s.fatal = false) (op : Byte) :
    exec (.illegal op) s = .next (raiseFatal .illegalCommand s) :=
  startCommand_running hf

/-- Settles O32: ILLEGAL of such a byte is well formed and the word is its encoding; a running engine starts it. -/
theorem unknownCommandIsFatal : Obligations.UnknownCommandIsFatal := by
  intro op hop
  have hw : (Instr.illegal op).wellFormed = true := by simpa [Instr.wellFormed, commandCodes] using hop
  refine ⟨?_, fun s hf => exec_illegal_running hf op⟩
  rw [or_cmd_eq_busWord, ← encode, decodeWord_encode hw]

end Sys2Proof.Machine
end

section
/-! PROOFS. The statements about the block cipher (spec/40_cipher_primitives.md): the laws of the field, by one
induction principle over its bytes; the inverse of each round transformation; the words of the key schedule; and the
rounds, with one lemma for both orders of the round trip. -/

namespace Sys2Proof.Machine

/-! ### The field: GMul is additive in both factors and lets XTime of the first factor out -/

theorem xTime_zero : xTime 0x00#8 = 0x00#8 := by decide

/-- A byte taken or left by the xor of two bits is the xor of the two choices. -/
theorem ite_xor_eq (x y : Bool) (c : Byte) :
    (if (x ^^ y) = true then c else 0x00#8) = (if x = true then c else 0x00#8) ^^^ if y = true then c else 0x00#8 := by
  cases x <;> cases y <;> simp

theorem xTime_eq (b : Byte) : xTime b = b <<< 1 ^^^ if b.getLsbD 7 then 0x1B#8 else 0x00#8 := by
  rw [xTime]
  cases b.getLsbD 7 <;> simp

theorem xTime_xor (a b : Byte) : xTime (a ^^^ b) = xTime a ^^^ xTime b := by
  simp only [xTime_eq, BitVec.getLsbD_xor, BitVec.shiftLeft_xor_distrib, ite_xor_eq]
  ac_rfl

/-- One pass of the loop adds the first factor to the product, or nothing. -/
theorem gMulLoop_succ (n : Nat) (a b p : Byte) :
    gMulLoop (n + 1) a b p = gMulLoop n (xTime a) (b >>> 1) (p ^^^ if b.getLsbD 0 then a else 0x00#8) := by
  rw [gMulLoop]
  cases b.getLsbD 0 <;> simp

theorem gMulLoop_xor_left (n : Nat) (a a' b p p' : Byte) :
    gMulLoop n (a ^^^ a') b (p ^^^ p') = gMulLoop n a b p ^^^ gMulLoop n a' b p' := by
  induction n generalizing a a' b p p' with
  | zero => rfl
  | succ n ih =>
    simp only [gMulLoop_succ, ← ih, xTime_xor]
    congr 1
    cases b.getLsbD 0
    · simp
    · simp only [if_true]
      ac_rfl

theorem gMulLoop_xor_right (n : Nat) (a b b' p p' : Byte) :
    gMulLoop n a (b ^^^ b') (p ^^^ p') = gMulLoop n a b p ^^^ gMulLoop n a b' p' := by
  induction n generalizing a b b' p p' with
  | zero => rfl
  | succ n ih =>
    simp only [gMulLoop_succ, ← ih, BitVec.ushiftRight_xor_distrib, BitVec.getLsbD_xor, ite_xor_eq]
    congr 1
    ac_rfl

theorem gMulLoop_xTime (n : Nat) (a b p : Byte) :
    gMulLoop n (xTime a) b (xTime p) = xTime (gMulLoop n a b p) := by
  induction n generalizing a b p with
  | zero => rfl
  | succ n ih =>
    rw [gMulLoop_succ, gMulLoop_succ, ← ih, xTime_xor]
    cases b.getLsbD 0 <;> simp [xTime_zero]

theorem xor_gMul (a a' b : Byte) : gMul (a ^^^ a') b = gMul a b ^^^ gMul a' b :=
  gMulLoop_xor_left 8 a a' b 0x00#8 0x00#8

theorem gMul_xor (a b b' : Byte) : gMul a (b ^^^ b') = gMul a b ^^^ gMul a b' :=
  gMulLoop_xor_right 8 a b b' 0x00#8 0x00#8

theorem xTime_gMul (a b : Byte) : gMul (xTime a) b = xTime (gMul a b) :=
  gMulLoop_xTime 8 a b 0x00#8

@[simp] theorem one_gMul : ∀ a : Byte, gMul 0x01#8 a = a := by decide +kernel

@[simp] theorem zero_gMul (a : Byte) : gMul 0x00#8 a = 0x00#8 := by
  simpa using xor_gMul a a a

/-! ### The field: every byte is a sum of powers of x -/

theorem gMulLoop_induction {P : Byte → Prop} (xTime : ∀ a, P a → P (xTime a)) (xor : ∀ a b, P a → P b → P (a ^^^ b))
    (n : Nat) {a p : Byte} (b : Byte) (ha : P a) (hp : P p) : P (gMulLoop n a b p) := by
  induction n generalizing a b p with
  | zero => exact hp
  | succ n ih =>
    rw [gMulLoop]
    split
    · exact ih _ (xTime a ha) (xor p a hp ha)
    · exact ih _ (xTime a ha) hp

/-- What 1 has, and XTime and xor keep, every byte has: `a = GMul(1, a)` is made of them. -/
theorem byte_field_induction {P : Byte → Prop} (one : P 0x01#8) (xTime : ∀ a, P a → P (xTime a))
    (xor : ∀ a b, P a → P b → P (a ^^^ b)) (a : Byte) : P a := by
  have zero : P 0x00#8 := xor _ _ one one
  rw [← one_gMul a]
  exact gMulLoop_induction xTime xor 8 a one zero

theorem gMul_xTime (a b : Byte) : gMul a (xTime b) = xTime (gMul a b) := by
  induction a using byte_field_induction with
  | one => simp
  | xTime a ih => rw [xTime_gMul, ih, xTime_gMul]
  | xor a a' ih ih' => rw [xor_gMul, ih, ih', xor_gMul, xTime_xor]

@[simp] theorem gMul_one (a : Byte) : gMul a 0x01#8 = a := by
  induction a using byte_field_induction with
  | one => simp
  | xTime a ih => rw [xTime_gMul, ih]
  | xor a a' ih ih' => rw [xor_gMul, ih, ih']

theorem gMul_comm (a b : Byte) : gMul a b = gMul b a := by
  induction a using byte_field_induction with
  | one => simp
  | xTime a ih => rw [xTime_gMul, gMul_xTime, ih]
  | xor a a' ih ih' => rw [xor_gMul, gMul_xor, ih, ih']

theorem gMul_assoc (a b c : Byte) : gMul (gMul a b) c = gMul a (gMul b c) := by
  induction a using byte_field_induction with
  | one => simp
  | xTime a ih => simp only [xTime_gMul, ih]
  | xor a a' ih ih' => simp only [xor_gMul, ih, ih']

theorem two_gMul (a : Byte) : gMul 0x02#8 a = xTime a := by
  rw [show 0x02#8 = xTime 0x01#8 from rfl, xTime_gMul, one_gMul]

theorem three_gMul (a : Byte) : gMul 0x03#8 a = xTime a ^^^ a := by
  rw [show 0x03#8 = 0x02#8 ^^^ 0x01#8 from rfl, xor_gMul, two_gMul, one_gMul]

/-- Settles O20: the laws of the field, collected. -/
theorem gMulIsTheFieldProduct : Obligations.GMulIsTheFieldProduct := fun a b c =>
  ⟨gMul_xor a b c, xor_gMul a b c, xTime_gMul a b, one_gMul a, gMul_comm a b, gMul_assoc a b c, gMul_one a,
    (gMul_comm a _).trans (zero_gMul a), two_gMul a, three_gMul a⟩

/-! ### The substitution box -/

theorem invSBox_sBox : ∀ a : Byte, invSBox (sBox a) = a := by decide +kernel

theorem sBox_invSBox : ∀ a : Byte, sBox (invSBox a) = a := by decide +kernel

/-- The search of GInv finds an inverse when one is among its candidates. -/
theorem gMul_gInvFrom {a b : Byte} (h : gMul a b = 0x01#8) {n : Nat} (hn : b.toNat ≤ n) :
    gMul a (gInvFrom a n) = 0x01#8 := by
  induction n with
  | zero =>
    obtain rfl : b = 0x00#8 := BitVec.eq_of_toNat_eq (Nat.le_zero.mp hn)
    exact h
  | succ n ih =>
    rw [gInvFrom]
    split
    · assumption
    · next hne =>
      refine ih (Nat.le_of_lt_succ (lt_of_le_of_ne hn fun (hb : b.toNat = n + 1) => hne ?_))
      rwa [← hb, BitVec.ofNat_toNat, BitVec.setWidth_eq]

/-- The inverse is unique, so the search finds this one. -/
theorem gInv_eq_of_gMul {a b : Byte} (h : gMul a b = 0x01#8) : gInv a = b := by
  have hg : gMul a (gInv a) = 0x01#8 := gMul_gInvFrom h (Nat.le_of_lt_succ b.isLt)
  calc gInv a = gMul (gMul a b) (gInv a) := by rw [h, one_gMul]
    _ = gMul (gMul b a) (gInv a) := by rw [gMul_comm a]
    _ = b := by rw [gMul_assoc, hg, gMul_one]

theorem gInv_zero : gInv 0x00#8 = 0x00#8 := by decide +kernel

/-- The affine map of 40 R125. -/
def sBoxAffine (b : Byte) : Byte :=
  b ^^^ b.rotateLeft 1 ^^^ b.rotateLeft 2 ^^^ b.rotateLeft 3 ^^^ b.rotateLeft 4 ^^^ 0x63#8

/-- The inverse of the affine map of 40 R125, through which the table gives each byte's inverse. -/
def sBoxAffineInv (b : Byte) : Byte := b.rotateLeft 1 ^^^ b.rotateLeft 3 ^^^ b.rotateLeft 6 ^^^ 0x05#8

theorem sBoxAffine_inv : ∀ b : Byte, sBoxAffine (sBoxAffineInv b) = b := by decide +kernel

theorem sBoxAffineInv_sBox_zero : sBoxAffineInv (sBox 0x00#8) = 0x00#8 := by decide +kernel

theorem gMul_sBoxAffineInv_sBox : ∀ a : Byte, a ≠ 0x00#8 → gMul a (sBoxAffineInv (sBox a)) = 0x01#8 := by
  decide +kernel

theorem gInv_eq_sBoxAffineInv_sBox (a : Byte) : gInv a = sBoxAffineInv (sBox a) := by
  by_cases ha : a = 0x00#8
  · rw [ha, gInv_zero, sBoxAffineInv_sBox_zero]
  · exact gInv_eq_of_gMul (gMul_sBoxAffineInv_sBox a ha)

theorem gMul_gInv {a : Byte} (ha : a ≠ 0x00#8) : gMul a (gInv a) = 0x01#8 := by
  rw [gInv_eq_sBoxAffineInv_sBox, gMul_sBoxAffineInv_sBox a ha]

theorem sBox_eq_affine_gInv (a : Byte) : sBox a = sBoxAffine (gInv a) := by
  rw [gInv_eq_sBoxAffineInv_sBox, sBoxAffine_inv]

/-- Settles O19: the inverse found by the search is read off the table through the inverse of the affine map. -/
theorem sBoxIsTheAffineInverse : Obligations.SBoxIsTheAffineInverse := fun a =>
  ⟨gMul_gInv, gInv_zero, sBox_eq_affine_gInv a, invSBox_sBox a, sBox_invSBox a⟩

/-! ### The round transformations -/

@[simp] theorem invSubBytes_subBytes (s : Block) : invSubBytes (subBytes s) = s := by
  ext i hi
  simp only [invSubBytes_getElem, subBytes_getElem, invSBox_sBox]

@[simp] theorem subBytes_invSubBytes (s : Block) : subBytes (invSubBytes s) = s := by
  ext i hi
  simp only [subBytes_getElem, invSubBytes_getElem, sBox_invSBox]

@[simp] theorem invShiftRows_shiftRows (s : Block) : invShiftRows (shiftRows s) = s := by
  apply Vector.ext
  intro i hi
  rw [invShiftRows_getElem, shiftRows_getElem]
  congr 1
  omega

@[simp] theorem shiftRows_invShiftRows (s : Block) : shiftRows (invShiftRows s) = s := by
  apply Vector.ext
  intro i hi
  rw [shiftRows_getElem, invShiftRows_getElem]
  congr 1
  omega

/-- A column multiplied by the circulant matrix with first row `c0 c1 c2 c3`: MixColumns and InvMixColumns are two of
these (40 R130, R131). -/
def circulant (c0 c1 c2 c3 a0 a1 a2 a3 : Byte) : KeyWord :=
  #v[gMul c0 a0 ^^^ gMul c1 a1 ^^^ gMul c2 a2 ^^^ gMul c3 a3,
     gMul c3 a0 ^^^ gMul c0 a1 ^^^ gMul c1 a2 ^^^ gMul c2 a3,
     gMul c2 a0 ^^^ gMul c3 a1 ^^^ gMul c0 a2 ^^^ gMul c1 a3,
     gMul c1 a0 ^^^ gMul c2 a1 ^^^ gMul c3 a2 ^^^ gMul c0 a3]

theorem mixColumn_eq_circulant : mixColumn = circulant 0x02#8 0x03#8 0x01#8 0x01#8 := by
  funext a0 a1 a2 a3
  simp only [mixColumn, circulant, one_gMul]

theorem invMixColumn_eq_circulant : invMixColumn = circulant 0x0E#8 0x0B#8 0x0D#8 0x09#8 := rfl

theorem circulant_one (a0 a1 a2 a3 : Byte) :
    circulant 0x01#8 0x00#8 0x00#8 0x00#8 a0 a1 a2 a3 = #v[a0, a1, a2, a3] := by
  simp [circulant]

/-- Circulant matrices multiply as polynomials modulo x^4 + 1 do. -/
theorem circulant_circulant (d0 d1 d2 d3 c0 c1 c2 c3 a0 a1 a2 a3 : Byte) :
    circulant d0 d1 d2 d3 (circulant c0 c1 c2 c3 a0 a1 a2 a3)[0] (circulant c0 c1 c2 c3 a0 a1 a2 a3)[1]
        (circulant c0 c1 c2 c3 a0 a1 a2 a3)[2] (circulant c0 c1 c2 c3 a0 a1 a2 a3)[3] =
      circulant (gMul d0 c0 ^^^ gMul d1 c3 ^^^ gMul d2 c2 ^^^ gMul d3 c1)
        (gMul d0 c1 ^^^ gMul d1 c0 ^^^ gMul d2 c3 ^^^ gMul d3 c2)
        (gMul d0 c2 ^^^ gMul d1 c1 ^^^ gMul d2 c0 ^^^ gMul d3 c3)
        (gMul d0 c3 ^^^ gMul d1 c2 ^^^ gMul d2 c1 ^^^ gMul d3 c0) a0 a1 a2 a3 := by
  simp only [circulant, Vector.getElem_mk, List.getElem_toArray, List.getElem_cons_zero, List.getElem_cons_succ,
    gMul_xor, xor_gMul, gMul_assoc]
  ac_rfl

theorem invMixColumn_mixColumn (a0 a1 a2 a3 : Byte) :
    invMixColumn (mixColumn a0 a1 a2 a3)[0] (mixColumn a0 a1 a2 a3)[1] (mixColumn a0 a1 a2 a3)[2]
      (mixColumn a0 a1 a2 a3)[3] = #v[a0, a1, a2, a3] := by
  rw [mixColumn_eq_circulant, invMixColumn_eq_circulant, circulant_circulant]
  exact circulant_one a0 a1 a2 a3

theorem mixColumn_invMixColumn (a0 a1 a2 a3 : Byte) :
    mixColumn (invMixColumn a0 a1 a2 a3)[0] (invMixColumn a0 a1 a2 a3)[1] (invMixColumn a0 a1 a2 a3)[2]
      (invMixColumn a0 a1 a2 a3)[3] = #v[a0, a1, a2, a3] := by
  rw [mixColumn_eq_circulant, invMixColumn_eq_circulant, circulant_circulant]
  exact circulant_one a0 a1 a2 a3

theorem onColumns_getElem_column (f : Byte → Byte → Byte → Byte → KeyWord) (s : Block) {c k : Nat}
    (hc : c < 4) (hk : k < 4) :
    (onColumns f s)[4 * c + k] = (f s[4 * c] s[4 * c + 1] s[4 * c + 2] s[4 * c + 3])[k] := by
  rw [onColumns_getElem]
  simp only [show (4 * c + k) / 4 = c by omega, show (4 * c + k) % 4 = k by omega]

/-- A function of a column that is undone on the column is undone on the four columns of a state. -/
theorem onColumns_onColumns {f g : Byte → Byte → Byte → Byte → KeyWord} (s : Block)
    (h : ∀ a0 a1 a2 a3, f (g a0 a1 a2 a3)[0] (g a0 a1 a2 a3)[1] (g a0 a1 a2 a3)[2] (g a0 a1 a2 a3)[3]
      = #v[a0, a1, a2, a3]) :
    onColumns f (onColumns g s) = s := by
  have hcol (c k : Nat) (hc : c < 4) (hk : k < 4) : (onColumns f (onColumns g s))[4 * c + k] = s[4 * c + k] := by
    have h0 := onColumns_getElem_column g s hc (show 0 < 4 by decide)
    have h1 := onColumns_getElem_column g s hc (show 1 < 4 by decide)
    have h2 := onColumns_getElem_column g s hc (show 2 < 4 by decide)
    have h3 := onColumns_getElem_column g s hc (show 3 < 4 by decide)
    simp only [Nat.add_zero] at h0
    rw [onColumns_getElem_column f _ hc hk]
    simp only [h0, h1, h2, h3, h]
    interval_cases k <;> rfl
  apply Vector.ext
  intro i hi
  simpa only [Nat.div_add_mod] using hcol (i / 4) (i % 4) (by omega) (by omega)

@[simp] theorem invMixColumns_mixColumns (s : Block) : invMixColumns (mixColumns s) = s :=
  onColumns_onColumns s invMixColumn_mixColumn

@[simp] theorem mixColumns_invMixColumns (s : Block) : mixColumns (invMixColumns s) = s :=
  onColumns_onColumns s mixColumn_invMixColumn

@[simp] theorem addRoundKey_addRoundKey (s rk : Block) : addRoundKey (addRoundKey s rk) rk = s := by
  ext i hi
  simp only [addRoundKey_getElem, BitVec.xor_assoc, BitVec.xor_self, BitVec.xor_zero]

/-- Settles O21: the four inverses, collected. -/
theorem inverseTransformationsUndo : Obligations.InverseTransformationsUndo := fun s rk =>
  ⟨invSubBytes_subBytes s, invShiftRows_shiftRows s, invMixColumns_mixColumns s, addRoundKey_addRoundKey s rk⟩

/-! ### The key schedule -/

/-- A word of the schedule keeps the value it was appended with. -/
theorem scheduleWord_expandKeyTo (k : Key) {n i : Nat} (h : i < n) :
    scheduleWord (expandKeyTo k n) i = nextScheduleWord k (expandKeyTo k i) := by
  induction n with
  | zero => omega
  | succ n ih =>
    rw [expandKeyTo, scheduleWord]
    by_cases hi : i < n
    · rw [List.getD_append _ _ _ _ (by simpa using hi), ← scheduleWord, ih hi]
    · obtain rfl : i = n := by omega
      rw [List.getD_append_right _ _ _ _ (by simp)]
      simp

/-- What has been appended by the time of word `n` is read as in the whole schedule. -/
theorem scheduleWord_expandKeyTo_eq (k : Key) {n i : Nat} (h : i < n) (hn : n ≤ 60) :
    scheduleWord (expandKeyTo k n) i = scheduleWord (expandKey k) i := by
  rw [expandKey, scheduleWord_expandKeyTo k h, scheduleWord_expandKeyTo k (h.trans_le hn)]

theorem scheduleWord_of_key (k : Key) {i : Nat} (h : i < 8) :
    scheduleWord (expandKey k) i = #v[k[4 * i], k[4 * i + 1], k[4 * i + 2], k[4 * i + 3]] := by
  simp [expandKey, scheduleWord_expandKeyTo k (show i < 60 by omega), nextScheduleWord, h]

theorem scheduleWord_of_recurrence (k : Key) {i : Nat} (h8 : 8 ≤ i) (h60 : i < 60) :
    scheduleWord (expandKey k) i =
      xorBytes (scheduleWord (expandKey k) (i - 8))
        (if i % 8 = 0 then xorBytes (subWord (rotWord (scheduleWord (expandKey k) (i - 1)))) (rcon (i / 8))
         else if i % 8 = 4 then subWord (scheduleWord (expandKey k) (i - 1))
         else scheduleWord (expandKey k) (i - 1)) := by
  rw [← scheduleWord_expandKeyTo_eq k (show i - 8 < i by omega) h60.le,
    ← scheduleWord_expandKeyTo_eq k (show i - 1 < i by omega) h60.le, expandKey, scheduleWord_expandKeyTo k h60]
  simp [nextScheduleWord, Nat.not_lt.mpr h8]

/-- Settles O22: the words of the key, and the recurrence. -/
theorem keyScheduleRecurrence : Obligations.KeyScheduleRecurrence := by
  refine fun k => ⟨expandKeyTo_length k 60, fun i hi => ?_⟩
  by_cases h : i < 8
  · simpa only [dif_pos h] using scheduleWord_of_key k h
  · simpa only [dif_neg h] using scheduleWord_of_recurrence k (Nat.not_lt.mp h) hi

theorem scheduleWord_getElem_of_key (k : Key) {i j : Nat} (hi : i < 8) (hj : j < 4) :
    (scheduleWord (expandKey k) i)[j] = k[4 * i + j] := by
  simp only [scheduleWord_of_key k hi]
  interval_cases j <;> rfl

/-- The first two round keys are the key (40 R137). -/
theorem keySchedule_getElem_of_key (k : Key) {r j : Nat} (hr : r < 2) (hj : j < 16) :
    (keySchedule k)[r][j] = k[16 * r + j] := by
  rw [keySchedule_getElem k r (by omega) j hj, scheduleWord_getElem_of_key k (by omega) (by omega)]
  congr 1
  omega

/-- Settles O23: the layout and the reversal are those of the definitions. -/
theorem keyScheduleLayout : Obligations.KeyScheduleLayout := by
  refine fun k => ⟨fun r j => keySchedule_getElem k r r.isLt j j.isLt, fun j => ⟨?_, ?_⟩,
    fun r => inverseSchedule_getElem _ r r.isLt⟩
  · simpa using keySchedule_getElem_of_key k (show 0 < 2 by decide) j.isLt
  · exact keySchedule_getElem_of_key k (show 1 < 2 by decide) j.isLt

/-! ### The rounds -/

theorem middleKeys_length (rks : RoundKeys) : (middleKeys rks).length = 13 := by simp [middleKeys]

theorem middleKeys_getElem (rks : RoundKeys) {r : Nat} (h : r < 13) :
    (middleKeys rks)[r]'(by simpa [middleKeys_length] using h) = rks[r + 1] := by
  simp [middleKeys]

/-- The cipher state after the first `r` of the thirteen full rounds `f` of a loop. -/
def stateAfterRounds (f : Block → Block → Block) (rks : RoundKeys) (s : Block) (r : Nat) : Block :=
  ((middleKeys rks).take r).foldl f s

theorem stateAfterRounds_succ (f : Block → Block → Block) (rks : RoundKeys) (s : Block) {r : Nat} (h : r < 13) :
    stateAfterRounds f rks s (r + 1) = f (stateAfterRounds f rks s r) rks[r + 1] := by
  rw [stateAfterRounds, List.take_succ_eq_append_getElem (by simpa [middleKeys_length] using h), List.foldl_concat,
    middleKeys_getElem rks h, stateAfterRounds]

/-- The row of states that thirteen full rounds `f` go through. -/
theorem exists_states_of_rounds (f : Block → Block → Block) (rks : RoundKeys) (s : Block) :
    ∃ x : Fin 14 → Block, x 0 = s ∧ (∀ r : Fin 13, x r.succ = f (x r.castSucc) rks[r.val + 1]) ∧
      x 13 = (middleKeys rks).foldl f s := by
  refine ⟨fun r => stateAfterRounds f rks s r.val, rfl, fun r => stateAfterRounds_succ f rks s r.isLt, ?_⟩
  change ((middleKeys rks).take 13).foldl f s = _
  rw [List.take_of_length_le (middleKeys_length rks).le]

theorem encrypt_eq (rks : RoundKeys) (b : Block) :
    encrypt rks b = addRoundKey (shiftRows (subBytes ((middleKeys rks).foldl encryptRound (addRoundKey b rks[0]))))
      rks[14] := by
  unfold encrypt
  rfl

theorem decrypt_eq (rks : RoundKeys) (b : Block) :
    decrypt rks b = addRoundKey (invSubBytes (invShiftRows ((middleKeys rks).foldl decryptRound
      (addRoundKey b rks[0])))) rks[14] := by
  unfold decrypt
  rfl

/-- Settles O24: the states that the rounds of each loop go through. -/
theorem roundsOfTheCipher : Obligations.RoundsOfTheCipher := by
  intro rks b
  obtain ⟨x, hx0, hx, hx13⟩ := exists_states_of_rounds encryptRound rks (addRoundKey b rks[0])
  obtain ⟨y, hy0, hy, hy13⟩ := exists_states_of_rounds decryptRound rks (addRoundKey b rks[0])
  exact ⟨⟨x, hx0, hx, by rw [encrypt_eq, hx13]⟩, y, hy0, hy, by rw [decrypt_eq, hy13]⟩

/-! ### The round trip -/

theorem middleKeys_inverseSchedule (ek : RoundKeys) :
    middleKeys (inverseSchedule ek) = (middleKeys ek).reverse := by
  apply List.ext_getElem
  · simp only [List.length_reverse, middleKeys_length]
  · intro i hi hi'
    rw [middleKeys_length] at hi
    simp only [List.getElem_reverse, middleKeys_length]
    rw [middleKeys_getElem _ hi, middleKeys_getElem _ (by omega), inverseSchedule_getElem]
    congr 1
    omega

/-- Rounds `g` undo rounds `f`, the keys taken backwards, when each does so seen through `t`: the half round that the
last round of a loop is made of. -/
theorem foldl_reverse_undo {f g : Block → Block → Block} {t : Block → Block} (h : ∀ s k, g (t (f s k)) k = t s)
    (ks : List Block) (s : Block) : ks.reverse.foldl g (t (ks.foldl f s)) = t s := by
  induction ks generalizing s with
  | nil => rfl
  | cons k ks ih => rw [List.reverse_cons, List.foldl_concat, List.foldl_cons, ih, h]

theorem decryptRound_encryptRound (s k : Block) :
    decryptRound (shiftRows (subBytes (encryptRound s k))) k = shiftRows (subBytes s) := by
  simp only [decryptRound, encryptRound, invShiftRows_shiftRows, invSubBytes_subBytes, addRoundKey_addRoundKey,
    invMixColumns_mixColumns]

theorem encryptRound_decryptRound (s k : Block) :
    encryptRound (invSubBytes (invShiftRows (decryptRound s k))) k = invSubBytes (invShiftRows s) := by
  simp only [decryptRound, encryptRound, subBytes_invSubBytes, shiftRows_invShiftRows, mixColumns_invMixColumns,
    addRoundKey_addRoundKey]

theorem decrypt_encrypt (ek : RoundKeys) (p : Block) : decrypt (inverseSchedule ek) (encrypt ek p) = p := by
  have rounds := foldl_reverse_undo (t := fun s => shiftRows (subBytes s)) decryptRound_encryptRound
    (middleKeys ek) (addRoundKey p ek[0])
  rw [decrypt_eq, encrypt_eq, middleKeys_inverseSchedule]
  simp only [inverseSchedule_getElem, Nat.sub_zero, Nat.sub_self, addRoundKey_addRoundKey, rounds,
    invShiftRows_shiftRows, invSubBytes_subBytes]

theorem encrypt_decrypt (ek : RoundKeys) (c : Block) : encrypt ek (decrypt (inverseSchedule ek) c) = c := by
  have rounds := foldl_reverse_undo (t := fun s => invSubBytes (invShiftRows s)) encryptRound_decryptRound
    (middleKeys ek).reverse (addRoundKey c ek[14])
  rw [decrypt_eq, encrypt_eq, middleKeys_inverseSchedule]
  rw [List.reverse_reverse] at rounds
  simp only [inverseSchedule_getElem, Nat.sub_zero, Nat.sub_self, addRoundKey_addRoundKey, rounds,
    shiftRows_invShiftRows, subBytes_invSubBytes]

/-- Settles O26, for every schedule, one given by a key or not. -/
theorem cipherRoundTrip : Obligations.CipherRoundTrip := fun k p =>
  ⟨decrypt_encrypt (keySchedule k) p, encrypt_decrypt (keySchedule k) p⟩

/-- Settles O25: the round keys and the encryption by evaluation, the decryption by the round trip. -/
theorem publishedExample : Obligations.PublishedExample := by
  unfold Obligations.PublishedExample
  intro k p c
  have hk2 : (keySchedule k)[2] = bytesOfNat 16 0xa573c29fa176c498a97fce93a572c09c := by decide +kernel
  have hk14 : (keySchedule k)[14] = bytesOfNat 16 0x24fc79ccbf0979e9371ac23c6d68de36 := by decide +kernel
  have henc : encrypt (keySchedule k) p = c := by decide +kernel
  exact ⟨hk2, hk14, henc, henc ▸ decrypt_encrypt (keySchedule k) p⟩

end Sys2Proof.Machine
end

section
/-! PROOFS. The statements about the cipher commands (spec/41_cipher_commands.md): what SETKEY, ENC and DEC do in a
running engine, and the round trip of the cipher seen through DIN and DOUT. -/

namespace Sys2Proof.Machine

theorem exec_enc_keyed {s : State} {g : Context} (hf : s.fatal = false) (hc : s.ctxU = some g) :
    exec .enc s = .next { s with dout := encrypt g.ek s.din } :=
  (startCommand_running hf).trans (blockCommand_keyed hc)

theorem exec_dec_keyed {s : State} {g : Context} (hf : s.fatal = false) (hc : s.ctxU = some g) :
    exec .dec s = .next { s with dout := decrypt g.dk s.din } :=
  (startCommand_running hf).trans (blockCommand_keyed hc)

/-- The refusal that ENC and DEC share (41 R163, R164). -/
theorem startCommand_blockCommand_unkeyed {f : Context → Block → Block} {s : State} (hf : s.fatal = false)
    (hk : s.keyedU = false) : startCommand (blockCommand f) s = .next (raiseFatal .notKeyed s) := by
  have hc : s.ctxU = none := by simpa [State.keyedU] using hk
  rw [startCommand_running hf, blockCommand_unkeyed hc]

/-- Settles O30: the first command keeps context U, so the second one undoes it by the round trip of the cipher. -/
theorem encAndDecUndoEachOther : Obligations.EncAndDecUndoEachOther := fun s k hf hc =>
  ⟨⟨_, _, exec_enc_keyed hf hc, exec_dec_keyed hf hc, decrypt_encrypt (keySchedule k) s.din⟩,
    _, _, exec_dec_keyed hf hc, exec_enc_keyed hf hc, encrypt_decrypt (keySchedule k) s.din⟩

/-- Settles O27: the context is that of KEYIN, whose second schedule is the first one backwards. -/
theorem setkeyKeysContextU : Obligations.SetkeyKeysContextU := fun s hf =>
  ⟨fun hm => ⟨contextOf s.keyin, rfl, fun r => inverseSchedule_getElem (keySchedule s.keyin) r r.isLt,
      (exec_setkey_running hf).trans (setKeyCommand_complete hm)⟩,
    fun hm => (exec_setkey_running hf).trans (setKeyCommand_incomplete hm)⟩

/-- Settles O28, with and without a context U. -/
theorem encEncryptsDin : Obligations.EncEncryptsDin := fun _ hf =>
  ⟨fun _ hc => exec_enc_keyed hf hc, fun hk => startCommand_blockCommand_unkeyed hf hk⟩

/-- Settles O29, with and without a context U. -/
theorem decDecryptsDin : Obligations.DecDecryptsDin := fun _ hf =>
  ⟨fun _ hc => exec_dec_keyed hf hc, fun hk => startCommand_blockCommand_unkeyed hf hk⟩

end Sys2Proof.Machine
end

section
/-! PROOFS. The statements about the generator commands (spec/42_generator_commands.md): the exact next states of GINIT,
ADVANCE and NEXTBYTE, then the runs of them: the counter, the keystream, the bytes of a block and their cost, the
record after a reset and the store in agreement with the engine. -/

namespace Sys2Proof.Machine

/-! ### Initialisation -/

theorem exec_ginit_running {s : State} (hf : s.fatal = false) : exec .ginit s = .next (lazyInit s) :=
  startCommand_running hf

theorem initialTriple_loaded {s : State} {t : Triple} (h : loadState s = some t) : initialTriple s = t := by
  simp [initialTriple, h]

/-- A record is adopted whole (42 R187). -/
theorem generatorInit_loaded {s : State} {t : Triple} (h : loadState s = some t) : generatorInit s = { s with
    triple := some t, ctxG := some (contextOf t.key), cursor := some 16, gstate := .ready } := by
  rw [generatorInit, h]
  rfl

/-- A synthesised triple is persisted (42 R187); the synthesis takes three draws and their 64 bytes (42 R184). -/
theorem generatorInit_synthesized {s : State} {t : Triple} (h : loadState s = none) (ht : (synthesize s).1 = t) :
    generatorInit s = { s with
      triple := some t, ctxG := some (contextOf t.key), cursor := some 16, gstate := .ready, seq := s.seq + 3
      store := storeAfter s.params (serializeRecord t) s.store
        ((s.outcomesIn[0]?).getD (Config.writeOutcome (s.draws + 3)))
      draws := s.draws + 4, entropyIn := s.entropyIn.drop 64, outcomesIn := s.outcomesIn.drop 1 } := by
  have hseq : s.seq + 3 = s.seq + 1 + 1 + 1 := by bv_omega
  have hdrop : s.entropyIn.drop 64 = ((s.entropyIn.drop 32).drop 16).drop 16 := by simp only [List.drop_drop]
  rw [hseq, hdrop, ← ht, generatorInit, h]
  rfl

/-- Byte `i` of an answer of the entropy port: lined up, or free (42 R185). -/
theorem entropyDraw_getElem (n : Nat) (s : State) (i : Nat) (h : i < n) :
    (entropyDraw n s).1[i] = (s.entropyIn[i]?).getD (Config.entropyByte s.draws n s.seq i) := by
  simp [entropyDraw]

/-- The fields of a synthesised triple are the answers to the three draws (42 R184). -/
theorem synthesize_fields (s : State) :
    (∀ i : Fin 32, (synthesize s).1.key[i]
      = (s.entropyIn[i.val]?).getD (Config.entropyByte s.draws 32 s.seq i.val)) ∧
    (∀ i : Fin 16, ctrByte (synthesize s).1.ctr i.val
      = (s.entropyIn[32 + i.val]?).getD (Config.entropyByte (s.draws + 1) 16 (s.seq + 1) i.val)) ∧
    (∀ i : Fin 16, (synthesize s).1.block[i]
      = (s.entropyIn[48 + i.val]?).getD (Config.entropyByte (s.draws + 2) 16 (s.seq + 2) i.val)) := by
  refine ⟨fun i => entropyDraw_getElem 32 s i i.isLt, fun i => ?_, fun i => ?_⟩
  · have hctr : (synthesize s).1.ctr = ctrFromBytes (entropyDraw 16 (entropyDraw 32 s).2).1 := rfl
    rw [hctr, ← ctrBytes_getElem _ i i.isLt, ctrBytes_ctrFromBytes, entropyDraw_getElem]
    simp
  · have hblock : (synthesize s).1.block = (entropyDraw 16 (entropyDraw 16 (entropyDraw 32 s).2).2).1 := rfl
    have hseq : s.seq + 2 = s.seq + 1 + 1 := by bv_omega
    rw [hblock, Fin.getElem_fin, entropyDraw_getElem, hseq]
    simp only [entropyDraw_state_entropyIn, List.drop_drop, List.getElem?_drop]
    rfl

/-- Settles O40, by `generatorInit_loaded`. -/
theorem ginitAdoptsTheRecord : Obligations.GinitAdoptsTheRecord := by
  intro s t hf hu h
  rw [exec_ginit_running hf, lazyInit_uninitialized hu, generatorInit_loaded h]

/-- Settles O42: lazy initialisation finds nothing to do. -/
theorem ginitWhenInitialisedHasNoEffect : Obligations.GinitWhenInitialisedHasNoEffect :=
  fun _ h => exec_ginit_started h

/-- Settles O41, with the synthesised triple. -/
theorem ginitSynthesisesFreshState : Obligations.GinitSynthesisesFreshState := by
  intro s hf hu h
  obtain ⟨hkey, hctr, hblock⟩ := synthesize_fields s
  refine ⟨(synthesize s).1, hkey, hctr, hblock, ?_⟩
  rw [exec_ginit_running hf, lazyInit_uninitialized hu, generatorInit_synthesized h rfl]

/-- GINIT of a running Uninitialized engine leaves it Ready, and every generator command does what it does then (42
R180). -/
theorem ginit_first {s : State} (hf : s.fatal = false) (hu : s.gstate = .uninitialized) :
    ∃ u t, exec .ginit s = .next u ∧ u.ReadyWith t 16 ∧ u.fatal = false ∧
      ∀ i : Instr, i.isGenerator = true → exec i s = exec i u :=
  ⟨lazyInit s, initialTriple s, exec_ginit_running hf, lazyInit_ready hu, (lazyInit_frame s).fatal.trans hf,
    fun _ hi => exec_generator_lazyInit hi hf⟩

/-- Settles O43, from lazy initialisation and the frame of the generator commands. -/
theorem firstCommandInitialises : Obligations.FirstCommandInitialises := by
  refine ⟨fun s hf i hi => exec_generator_fatal hi hf, fun s hf hu => ?_, fun s u i hi h => ?_⟩
  · obtain ⟨u, t, hg, hr, hf', he⟩ := ginit_first hf hu
    exact ⟨u, t, hg, hr, hf', he .advance rfl, he .nextbyte rfl⟩
  · have hframe := exec_generator_frame hi h
    exact ⟨hframe.fatal, hframe.cause⟩

/-! ### ADVANCE and NEXTBYTE of a Ready generator -/

/-- `s` with the triple `t` adopted and persisted and the cursor at its block's first byte (42 R189). -/
def State.advancedTo (s : State) (t : Triple) : State :=
  { s with
    triple := some t
    cursor := some 0
    store := storeAfter s.params (serializeRecord t) s.store (nextOutcome s)
    draws := s.draws + 1
    outcomesIn := s.outcomesIn.drop 1 }

/-- `s` with the byte `b` given out and the cursor moved to `c` (42 R193). -/
def State.emitted (s : State) (b : Byte) (c : Fin 17) : State := { s with byteout := b, cursor := some c }

@[simp] theorem State.advancedTo_draws (s : State) (t : Triple) : (s.advancedTo t).draws = s.draws + 1 := rfl
@[simp] theorem State.advancedTo_outcomesIn (s : State) (t : Triple) :
    (s.advancedTo t).outcomesIn = s.outcomesIn.drop 1 := rfl
@[simp] theorem State.emitted_draws (s : State) (b : Byte) (c : Fin 17) : (s.emitted b c).draws = s.draws := rfl
@[simp] theorem State.emitted_outcomesIn (s : State) (b : Byte) (c : Fin 17) :
    (s.emitted b c).outcomesIn = s.outcomesIn := rfl
@[simp] theorem nextKeystreamBlock_ctr (t : Triple) : (nextKeystreamBlock t).ctr = t.ctr + 1#128 := rfl

theorem State.ReadyWith.advancedTo {s : State} {t : Triple} {c : Fin 17} (h : s.ReadyWith t c) :
    (s.advancedTo (nextKeystreamBlock t)).ReadyWith (nextKeystreamBlock t) 0 := by
  obtain ⟨hg, -, -, hctx⟩ := h
  exact ⟨hg, rfl, rfl, hctx⟩

theorem State.ReadyWith.emitted {s : State} {t : Triple} {c : Fin 17} (h : s.ReadyWith t c) (b : Byte) (c' : Fin 17) :
    (s.emitted b c').ReadyWith t c' := by
  obtain ⟨hg, ht, -, hctx⟩ := h
  exact ⟨hg, ht, rfl, hctx⟩

theorem exec_advance_ready {s : State} {t : Triple} {c : Fin 17} (hf : s.fatal = false) (h : s.ReadyWith t c) :
    exec .advance s = .next (s.advancedTo (nextKeystreamBlock t)) :=
  (exec_advance_started hf h.started).trans (advanceBlock_ready h)

theorem exec_nextbyte_below {s : State} {t : Triple} {c : Fin 17} (hf : s.fatal = false) (h : s.ReadyWith t c)
    (hc : c.val < 16) : exec .nextbyte s = .next (s.emitted t.block[c.val] ⟨c.val + 1, by omega⟩) := by
  obtain ⟨-, ht, hcur, -⟩ := id h
  have hne : s.cursor ≠ some 16 := by
    rw [hcur]
    rintro ⟨⟩
    exact absurd hc (by decide)
  exact (exec_nextbyte_emit hf h.started hne).trans (emitByte_some ht hcur hc)

theorem exec_nextbyte_at_end {s : State} {t : Triple} (hf : s.fatal = false) (h : s.ReadyWith t 16) :
    exec .nextbyte s
      = .next ((s.advancedTo (nextKeystreamBlock t)).emitted (nextKeystreamBlock t).block[0] 1) := by
  obtain ⟨-, -, hcur, -⟩ := id h
  rw [exec_nextbyte_refill hf h.started hcur, advanceBlock_ready h, andThen_next, emitByte_some rfl rfl (by decide)]
  rfl

/-- Settles O44, with the next keystream block. -/
theorem advanceProducesTheNextBlock : Obligations.AdvanceProducesTheNextBlock := by
  intro s t c hf h
  refine ⟨nextKeystreamBlock t, rfl, rfl, congrArg (encrypt (keySchedule t.key)) ?_, exec_advance_ready hf h⟩
  ext1 i hi
  simp

/-- Settles O45, from the two cases of the cursor. -/
theorem nextbyteReturnsTheByteAtTheCursor : Obligations.NextbyteReturnsTheByteAtTheCursor := by
  refine ⟨fun s hf hu => ?_, fun s t c hf h => ⟨exec_nextbyte_below hf h, ?_⟩⟩
  · obtain ⟨u, t, hg, hr, hf', he⟩ := ginit_first hf hu
    exact ⟨u, t, hg, hr, hf', he .nextbyte rfl⟩
  · rintro rfl
    exact ⟨_, _, exec_advance_ready hf h, h.advancedTo, exec_nextbyte_at_end hf h⟩

/-! ### The counter -/

theorem execAll_cons_next {i : Instr} {s t : State} (h : exec i s = .next t) (is : List Instr) :
    execAll (i :: is) s = execAll is t := by
  simp [execAll, h]

theorem ctrLow_toNat (c : Counter) : (ctrLow c).toNat = c.toNat % 2 ^ 64 := by
  simp [ctrLow]

theorem ctrHigh_toNat (c : Counter) : (ctrHigh c).toNat = c.toNat / 2 ^ 64 := by
  have hc : c.toNat < 2 ^ 128 := c.isLt
  simp only [ctrHigh, BitVec.extractLsb'_toNat, Nat.shiftRight_eq_div_pow]
  omega

/-- Adding 1 carries into the high word exactly from a full low word (42 R194). -/
theorem ctr_add_one_words (c : Counter) :
    (ctrLow c = 0xFFFFFFFFFFFFFFFF#64 → ctrLow (c + 1) = 0#64 ∧ ctrHigh (c + 1) = ctrHigh c + 1) ∧
    (ctrLow c ≠ 0xFFFFFFFFFFFFFFFF#64 → ctrLow (c + 1) = ctrLow c + 1 ∧ ctrHigh (c + 1) = ctrHigh c) := by
  have hc : c.toNat < 2 ^ 128 := c.isLt
  simp only [ne_eq, ← BitVec.toNat_inj, BitVec.toNat_add, ctrLow_toNat, ctrHigh_toNat, BitVec.toNat_ofNat,
    BitVec.ofNat_eq_ofNat]
  omega

theorem advances_counter (n : Nat) {s : State} {t : Triple} {c : Fin 17} (h : s.ReadyWith t c)
    (hf : s.fatal = false) : ∃ u t' c', execAll (List.replicate n .advance) s = .next u ∧ u.ReadyWith t' c' ∧
      t'.ctr.toNat = (t.ctr.toNat + n) % 2 ^ 128 := by
  induction n generalizing s t c with
  | zero => exact ⟨s, t, c, rfl, h, (Nat.mod_eq_of_lt t.ctr.isLt).symm⟩
  | succ n ih =>
    obtain ⟨u, t', c', hu, hr, hctr⟩ := ih h.advancedTo hf
    refine ⟨u, t', c', ?_, hr, ?_⟩
    · rw [List.replicate_succ, execAll_cons_next (exec_advance_ready hf h), hu]
    · rw [hctr, nextKeystreamBlock_ctr, BitVec.toNat_add, show (1#128).toNat = 1 from rfl,
        Nat.mod_add_mod, Nat.add_assoc, Nat.add_comm 1]

/-- Settles O47: the run of advances by induction, and what else there is from O46. -/
theorem counterLaw : Obligations.CounterLaw := by
  refine ⟨fun n s t c hf h => advances_counter n h hf, fun s u i t c hw hr h hna hnb => ?_, ctr_add_one_words⟩
  obtain ⟨t', c', hr', -, rfl | ⟨-, hi | hi, -⟩⟩ := onlyAnAdvanceChangesTheTriple s u i t c hw hr h
  · exact ⟨c', hr'⟩
  · exact absurd hi hna
  · exact absurd hi hnb

/-! ### The keystream as a function of the generator commands -/

/-- What the generator commands of a run go by (42 R195): the triple, the cursor, and the byte given out last in the
run, if there was one. -/
structure Keystream where
  triple : Triple
  cursor : Fin 17
  byte : Option Byte

/-- The keystream after one instruction (42 R189, R193). -/
def Keystream.after (k : Keystream) : Instr → Keystream
  | .advance => { k with triple := nextKeystreamBlock k.triple, cursor := 0 }
  | .nextbyte =>
    if h : k.cursor.val < 16 then
      { k with cursor := ⟨k.cursor.val + 1, by omega⟩, byte := some k.triple.block[k.cursor.val] }
    else
      { triple := nextKeystreamBlock k.triple, cursor := 1, byte := some (nextKeystreamBlock k.triple).block[0] }
  | .ginit | .setkey | .enc | .dec | .illegal _ | .isinit _ | .rdbyte _ | .rd _ _ | .wr _ _ => k

/-- The engine `s` stands at `k` of a run that began with `b` in BYTEOUT. -/
structure State.StandsAt (s : State) (b : Byte) (k : Keystream) : Prop where
  ready : s.ReadyWith k.triple k.cursor
  byteout : s.byteout = k.byte.getD b

theorem Keystream.after_of_not_generator {i : Instr} (hi : i.isGenerator = false) (k : Keystream) : k.after i = k := by
  cases i with
  | ginit => cases hi
  | advance => cases hi
  | nextbyte => cases hi
  | _ => rfl

/-- Only the generator commands of a list matter. -/
theorem Keystream.foldl_after_filter (is : List Instr) (k : Keystream) :
    (is.filter Instr.isGenerator).foldl Keystream.after k = is.foldl Keystream.after k := by
  rw [List.foldl_filter]
  congr 1
  funext k i
  split_ifs with hi
  · rfl
  · rw [k.after_of_not_generator (by simpa using hi)]

theorem Keystream.after_nextbyte_isSome (k : Keystream) : (k.after .nextbyte).byte.isSome := by
  simp only [Keystream.after]
  split_ifs <;> rfl

theorem Keystream.after_isSome {k : Keystream} (h : k.byte.isSome) (i : Instr) : (k.after i).byte.isSome := by
  cases i with
  | nextbyte => exact k.after_nextbyte_isSome
  | _ => exact h

/-- A NEXTBYTE in the run gives out a byte. -/
theorem Keystream.foldl_after_isSome {is : List Instr} {k : Keystream} (h : k.byte.isSome ∨ .nextbyte ∈ is) :
    (is.foldl Keystream.after k).byte.isSome := by
  induction is generalizing k with
  | nil => simpa using h
  | cons i is ih =>
    obtain h | h := h
    · exact ih (.inl (k.after_isSome h i))
    · obtain rfl | h := List.mem_cons.mp h
      · exact ih (.inl k.after_nextbyte_isSome)
      · exact ih (.inr h)

/-- A generator command of a running engine moves it along the keystream (42 R195). -/
theorem State.StandsAt.exec_generator {i : Instr} {s : State} {b : Byte} {k : Keystream} (h : s.StandsAt b k)
    (hi : i.isGenerator = true) (hf : s.fatal = false) :
    ∃ u, exec i s = .next u ∧ u.fatal = false ∧ u.StandsAt b (k.after i) := by
  obtain ⟨hr, hb⟩ := h
  obtain rfl | rfl | rfl := isGenerator_cases hi
  · exact ⟨s, exec_ginit_started hr.started, hf, hr, hb⟩
  · exact ⟨_, exec_advance_ready hf hr, hf, hr.advancedTo, hb⟩
  · by_cases hc : k.cursor.val < 16
    · refine ⟨_, exec_nextbyte_below hf hr hc, hf, ?_⟩
      simp only [Keystream.after, dif_pos hc]
      exact ⟨hr.emitted _ _, rfl⟩
    · have hend : k.cursor = 16 := by omega
      refine ⟨_, exec_nextbyte_at_end hf (hend ▸ hr), hf, ?_⟩
      simp only [Keystream.after, dif_neg hc]
      exact ⟨hr.advancedTo.emitted _ _, rfl⟩

theorem State.StandsAt.execAll_generators {is : List Instr} {s : State} {b : Byte} {k : Keystream}
    (h : s.StandsAt b k) (his : ∀ i ∈ is, i.isGenerator = true) (hf : s.fatal = false) :
    ∃ u, execAll is s = .next u ∧ u.StandsAt b (is.foldl Keystream.after k) := by
  induction is generalizing s k with
  | nil => exact ⟨s, rfl, h⟩
  | cons i is ih =>
    obtain ⟨hi, his⟩ := List.forall_mem_cons.mp his
    obtain ⟨t, ht, hf', h'⟩ := h.exec_generator hi hf
    obtain ⟨u, hu, h''⟩ := ih h' his hf'
    exact ⟨u, (execAll_cons_next ht is).trans hu, h''⟩

/-- The other instructions leave the generator and BYTEOUT alone (41 R160; 42 R195). -/
theorem Effect.keeps_generator {i : Instr} {s t : State} (h : Effect s i t) (hg : i.isGenerator = false) :
    t.gstate = s.gstate ∧ t.triple = s.triple ∧ t.cursor = s.cursor ∧ t.ctxG = s.ctxG ∧ t.byteout = s.byteout := by
  cases h with
  | generator hi => simp [hg] at hi
  | _ => exact ⟨rfl, rfl, rfl, rfl, rfl⟩

/-- No instruction clears the fatal bit (60 R234). -/
theorem Effect.running_before {i : Instr} {s t : State} (h : Effect s i t) (ht : t.fatal = false) :
    s.fatal = false := by
  cases h with
  | generator hi h => exact (exec_generator_frame hi h).fatal.symm.trans ht
  | read => exact ht
  | notStarted => exact ht
  | writeIgnored => exact ht
  | _ => assumption

theorem State.StandsAt.exec_running {i : Instr} {s t : State} {b : Byte} {k : Keystream} (h : s.StandsAt b k)
    (hw : i.wellFormed = true) (ht : exec i s = .next t) (hf : t.fatal = false) : t.StandsAt b (k.after i) := by
  have he := exec_effect hw ht
  cases hg : i.isGenerator with
  | true =>
    obtain ⟨u, hu, -, h'⟩ := h.exec_generator hg (he.running_before hf)
    cases hu.symm.trans ht
    exact h'
  | false =>
    rw [k.after_of_not_generator hg]
    obtain ⟨hgs, htr, hcur, hctx, hbyte⟩ := he.keeps_generator hg
    exact ⟨by simpa only [State.ReadyWith, hgs, htr, hcur, hctx] using h.ready, hbyte.trans h.byteout⟩

/-- A run that ends with the fatal bit clear had it clear throughout. -/
theorem execAll_running_before {is : List Instr} {s u : State} (his : ∀ i ∈ is, i.wellFormed = true)
    (hu : execAll is s = .next u) (hf : u.fatal = false) : s.fatal = false := by
  induction is generalizing s with
  | nil => cases hu; exact hf
  | cons i is ih =>
    obtain ⟨hw, his⟩ := List.forall_mem_cons.mp his
    obtain ⟨t, ht, hu⟩ := andThen_eq_next.mp hu
    exact (exec_effect hw ht).running_before (ih his hu)

theorem State.StandsAt.execAll_running {is : List Instr} {s u : State} {b : Byte} {k : Keystream}
    (h : s.StandsAt b k) (his : ∀ i ∈ is, i.wellFormed = true) (hu : execAll is s = .next u)
    (hf : u.fatal = false) : u.StandsAt b (is.foldl Keystream.after k) := by
  induction is generalizing s k with
  | nil => cases hu; exact h
  | cons i is ih =>
    obtain ⟨hw, his⟩ := List.forall_mem_cons.mp his
    obtain ⟨t, ht, hu⟩ := andThen_eq_next.mp hu
    exact ih (h.exec_running hw ht (execAll_running_before his hu hf)) his hu

/-- The start of a run: no byte given out yet. -/
theorem State.ReadyWith.standsAt {s : State} {t : Triple} {c : Fin 17} (h : s.ReadyWith t c) :
    s.StandsAt s.byteout ⟨t, c, none⟩ := ⟨h, rfl⟩

/-- Two engines at the same place of their runs have the same BYTEOUT, if they began with the same or a byte was given
out. -/
theorem State.StandsAt.byteout_eq {u u' : State} {b b' : Byte} {k : Keystream} (h : u.StandsAt b k)
    (h' : u'.StandsAt b' k) (hb : b = b' ∨ k.byte.isSome) : u.byteout = u'.byteout := by
  rw [h.byteout, h'.byteout]
  obtain rfl | hb := hb
  · rfl
  · obtain ⟨x, hx⟩ := Option.isSome_iff_exists.mp hb
    simp [hx]

/-- Settles O48: both engines stand where the keystream stands after the generator commands. -/
theorem keystreamIsDeterministic : Obligations.KeystreamIsDeterministic := by
  refine ⟨fun is s s' t c his hf hf' h h' => ?_, fun is is' s s' u u' t c hw hfilter h h' hu hu' hf hf' => ?_⟩
  · obtain ⟨u, hu, hk⟩ := h.standsAt.execAll_generators his hf
    obtain ⟨u', hu', hk'⟩ := h'.standsAt.execAll_generators his hf'
    exact ⟨u, u', _, _, hu, hu', hk.ready, hk'.ready,
      fun hb => hk.byteout_eq hk' (hb.imp_right fun hn => Keystream.foldl_after_isSome (.inr hn))⟩
  · obtain ⟨his, his'⟩ := List.forall_mem_append.mp hw
    have hk := h.standsAt.execAll_running his hu hf
    have hk' := h'.standsAt.execAll_running his' hu' hf'
    rw [← Keystream.foldl_after_filter, ← hfilter, Keystream.foldl_after_filter] at hk'
    exact ⟨_, _, hk.ready, hk'.ready,
      fun hb => hk.byteout_eq hk' (hb.imp_right fun hn => Keystream.foldl_after_isSome (.inr hn))⟩

/-! ### The bytes of a block and their cost -/

/-- `s` after NEXTBYTE has given out `b` and RDBYTE has returned it to the host (10 R25, 30 R99). -/
def State.byteTaken (s : State) (b : Byte) (c : Fin 17) : State := respond b (s.emitted b c)

@[simp] theorem State.byteTaken_returned (s : State) (b : Byte) (c : Fin 17) :
    (s.byteTaken b c).returned = s.returned ++ [b] := rfl

theorem State.ReadyWith.byteTaken {s : State} {t : Triple} {c : Fin 17} (h : s.ReadyWith t c) (b : Byte)
    (c' : Fin 17) : (s.byteTaken b c').ReadyWith t c' := h.emitted b c'

theorem execAll_byteTaken {s : State} {t : Triple} {c : Fin 17} (hf : s.fatal = false) (h : s.ReadyWith t c)
    (hc : c.val < 16) (is : List Instr) : execAll (.nextbyte :: .rdbyte 0x00#8 :: is) s
      = execAll is (s.byteTaken t.block[c.val] ⟨c.val + 1, by omega⟩) :=
  execAll_cons_next (exec_nextbyte_below hf h hc) _

/-- The host takes the bytes from the cursor to the end of the block, one NEXTBYTE and one RDBYTE each (42 R193). -/
theorem rest_of_block_returned (n : Nat) {s : State} {t : Triple} {c : Fin 17} (h : s.ReadyWith t c)
    (hf : s.fatal = false) (hn : c.val + n = 16) :
    ∃ u, execAll (List.replicate n [.nextbyte, .rdbyte 0x00#8]).flatten s = .next u ∧
      u.returned = s.returned ++ t.block.toList.drop c.val ∧ u.ReadyWith t 16 ∧ u.store = s.store ∧
      u.draws = s.draws := by
  induction n generalizing s c with
  | zero =>
    obtain rfl : c = 16 := by omega
    exact ⟨s, rfl, by simp, h, rfl, rfl⟩
  | succ n ih =>
    have hc : c.val < 16 := by omega
    have hr' := h.byteTaken t.block[c.val] ⟨c.val + 1, by omega⟩
    obtain ⟨u, hu, hret, hr, hstore, hdraws⟩ := ih hr' hf (by simp only; omega)
    refine ⟨u, (execAll_byteTaken hf h hc _).trans hu, ?_, hr, hstore, hdraws⟩
    have hdrop : t.block.toList.drop c.val = t.block[c.val] :: t.block.toList.drop (c.val + 1) := by
      rw [List.drop_eq_getElem_cons (by simpa using hc), Vector.getElem_toList]
    rw [hret, hdrop, State.byteTaken_returned, List.append_assoc, List.singleton_append]

/-- Settles O49: the rest of the block from cursor 0 is the block. -/
theorem sixteenBytesOfABlock : Obligations.SixteenBytesOfABlock := by
  intro s t hf h
  simpa using rest_of_block_returned 16 h hf rfl

/-- How many advances `n` NEXTBYTEs from cursor `c` take (42 R198). -/
def advancesFor (n c : Nat) : Nat := (n - (16 - c) + 15) / 16

theorem advancesFor_succ_below {c : Nat} (h : c < 16) (n : Nat) : advancesFor (n + 1) c = advancesFor n (c + 1) := by
  unfold advancesFor
  omega

theorem advancesFor_succ_at_end (n : Nat) : advancesFor (n + 1) 16 = 1 + advancesFor n 1 := by
  unfold advancesFor
  omega

theorem nextbytes_cost (n : Nat) {s : State} {t : Triple} {c : Fin 17} (h : s.ReadyWith t c)
    (hf : s.fatal = false) :
    ∃ u t' c', execAll (List.replicate n .nextbyte) s = .next u ∧ u.ReadyWith t' c' ∧
      t'.ctr = t.ctr + BitVec.ofNat 128 (advancesFor n c) ∧ u.draws = s.draws + advancesFor n c ∧
      u.outcomesIn = s.outcomesIn.drop (advancesFor n c) := by
  induction n generalizing s t c with
  | zero =>
    have hzero : advancesFor 0 c = 0 := by simp [advancesFor]
    rw [hzero]
    exact ⟨s, t, c, rfl, h, by simp, rfl, rfl⟩
  | succ n ih =>
    rw [List.replicate_succ]
    by_cases hc : c.val < 16
    · have hrest := ih (h.emitted t.block[c.val] ⟨c.val + 1, by omega⟩) hf
      rw [State.emitted_draws, State.emitted_outcomesIn] at hrest
      rwa [execAll_cons_next (exec_nextbyte_below hf h hc), advancesFor_succ_below hc]
    · obtain rfl : c = 16 := by omega
      have hr' := h.advancedTo.emitted (nextKeystreamBlock t).block[0] 1
      obtain ⟨u, t', c', hu, hr, hctr, hdraws, hout⟩ := ih hr' hf
      have hone : advancesFor (n + 1) (16 : Fin 17) = 1 + advancesFor n (1 : Fin 17) := advancesFor_succ_at_end n
      rw [execAll_cons_next (exec_nextbyte_at_end hf h), hone]
      refine ⟨u, t', c', hu, hr, ?_, ?_, ?_⟩
      · rw [hctr, nextKeystreamBlock_ctr, BitVec.ofNat_add, BitVec.add_assoc]
      · rw [hdraws, State.emitted_draws, State.advancedTo_draws, Nat.add_assoc]
      · rw [hout, State.emitted_outcomesIn, State.advancedTo_outcomesIn, List.drop_drop]

/-- Settles O50, by induction on the number of bytes. -/
theorem costLaw : Obligations.CostLaw := fun n _ _ _ hf h => nextbytes_cost n h hf

/-! ### The record after a reset -/

/-- ADVANCE of an Uninitialized engine goes on from the record in the store (42 R187, R189). -/
theorem exec_advance_of_record {s : State} {t : Triple} (hf : s.fatal = false) (hu : s.gstate = .uninitialized)
    (h : parseRecord s.params s.store = some t) :
    ∃ u, exec .advance s = .next u ∧ u.triple = some (nextKeystreamBlock t) := by
  have hr : (lazyInit s).ReadyWith t 16 := initialTriple_loaded h ▸ lazyInit_ready hu
  rw [exec_generator_lazyInit rfl hf, exec_advance_ready ((lazyInit_frame s).fatal.trans hf) hr]
  exact ⟨_, rfl, rfl⟩

/-- Settles O51: both resets find the same record under the same parameters. -/
theorem resumeRepeatsTheBlock : Obligations.ResumeRepeatsTheBlock := by
  intro s t h
  obtain ⟨u, hu, htriple⟩ := exec_advance_of_record (s := resetEngine s) rfl rfl h
  have hparams : u.params = s.params := (exec_generator_frame rfl hu).params
  obtain ⟨w, hw, htriple'⟩ :=
    exec_advance_of_record (s := { resetEngine u with store := s.store }) rfl rfl (hparams ▸ h)
  exact ⟨u, nextKeystreamBlock t, _, w, hu, htriple, rfl, rfl, hw, htriple'.trans htriple.symm⟩

/-- A store in agreement with a Ready engine parses to its triple, if that is consistent (20 R65). -/
theorem State.InSync.parseRecord_eq {s : State} {t : Triple} {c : Fin 17} (h : s.InSync) (hr : s.ReadyWith t c)
    (hc : recordConsistent s.params t = true) : parseRecord s.params s.store = some t := by
  obtain ⟨hg, ht, -, -⟩ := hr
  obtain ⟨t', ht', hstore⟩ := h hg
  obtain rfl : t = t' := Option.some.inj (ht.symm.trans ht')
  rw [hstore, parseRecord_serializeRecord, if_pos hc]

/-- Settles O55: the store in agreement is a record for the engine after the reset. -/
theorem cleanRestartContinues : Obligations.CleanRestartContinues := by
  intro s t c hr hs hc
  have hrec : parseRecord s.params s.store = some t := hs.parseRecord_eq hr hc
  have hinit : initialTriple (resetEngine s) = t := initialTriple_loaded hrec
  obtain ⟨v, hv, htriple⟩ := exec_advance_of_record (s := resetEngine s) rfl rfl hrec
  exact ⟨_, v, exec_ginit_running rfl, hinit ▸ lazyInit_ready rfl, hv, htriple⟩

/-! ### The store in agreement -/

theorem persist_store_of_ok {s : State} (h : nextOutcome s = .ok) (t : Triple) :
    (persist t s).store = some (serializeRecord t) := by
  rw [persist, storeWrite_of_outcome _ h]
  rfl

theorem inSync_of_eq {s t : State} (hg : t.gstate = s.gstate) (ht : t.triple = s.triple) (hs : t.store = s.store)
    (h : s.InSync) : t.InSync := by
  simpa only [State.InSync, hg, ht, hs] using h

/-- A record that parses is the record of its triple (20 R65). -/
theorem serializeRecord_of_parseRecord {p : Params} {c : Option (List Byte)} {t : Triple}
    (h : parseRecord p c = some t) : c = some (serializeRecord t) := by
  obtain ⟨b, hb, rfl, rfl, -⟩ := parseRecord_some h
  rw [serializeRecord_recordFields]

/-- Initialisation leaves the store in agreement: a loaded record is the triple's, a synthesised one is written (42
R187). -/
theorem State.InSync.lazyInit {s : State} (h : s.InSync)
    (hok : s.gstate = .uninitialized → loadState s = none → nextOutcome (synthesize s).2 = .ok) :
    (lazyInit s).InSync := by
  by_cases hu : s.gstate = .uninitialized
  · rw [lazyInit_uninitialized hu]
    cases hl : loadState s with
    | some t =>
      rw [generatorInit_loaded hl]
      exact fun _ => ⟨t, rfl, serializeRecord_of_parseRecord hl⟩
    | none =>
      have hout : (s.outcomesIn[0]?).getD (Config.writeOutcome (s.draws + 3)) = .ok := hok hu hl
      rw [generatorInit_synthesized hl rfl, hout]
      exact fun _ => ⟨_, rfl, rfl⟩
  · rwa [lazyInit_started hu]

theorem advanceBlock_inSync {s u : State} (h : advanceBlock s = .next u) (hok : nextOutcome s = .ok) : u.InSync := by
  obtain ⟨t, g, ht, hg⟩ := advanceBlock_next h
  obtain ⟨t', -, -, -, hu⟩ := advanceBlock_some ht hg
  cases hu.symm.trans h
  exact fun _ => ⟨t', rfl, persist_store_of_ok hok t'⟩

theorem State.InSync.emitByte {s u : State} (hs : s.InSync) (h : emitByte s = .next u) : u.InSync := by
  obtain ⟨t, c, hc, -, -, rfl⟩ := emitByte_next h
  exact hs

/-- After its lazy initialisation a command keeps the agreement, if the write of its advance returns ok. -/
theorem GeneratorMove.keeps_inSync {i : Instr} {s t : State} (h : GeneratorMove i (lazyInit s) t)
    (hs : (lazyInit s).InSync) (hok : s.advances i = true → nextOutcome (lazyInit s) = .ok) : t.InSync := by
  cases h with
  | init => exact hs
  | advance ha => exact advanceBlock_inSync ha (hok rfl)
  | emit _ he => exact hs.emitByte he
  | refill hc ha he => exact (advanceBlock_inSync ha (hok (by simp [State.advances, hc]))).emitByte he

theorem exec_keeps_inSync {i : Instr} {s t : State} (hw : i.wellFormed = true) (h : exec i s = .next t)
    (hs : s.InSync) (hok : ∀ o ∈ s.writeOutcomes i, o = .ok) : t.InSync := by
  cases hg : i.isGenerator with
  | false =>
    have he := exec_effect hw h
    obtain ⟨hgs, ht, -⟩ := he.keeps_generator hg
    obtain ⟨-, hstore⟩ := he.keeps_store hg
    exact inSync_of_eq hgs ht hstore hs
  | true =>
    obtain ⟨-, rfl⟩ | ⟨hf, hm⟩ := exec_generator_cases hg h
    · exact hs
    · rw [writeOutcomes_of_started hg hf] at hok
      obtain ⟨hinit, hadv⟩ := List.forall_mem_append.mp hok
      exact hm.keeps_inSync (hs.lazyInit fun hu hl => hinit _ (by simp [hu, hl])) fun ha => hadv _ (by simp [ha])

/-- Settles O53, by the cases of a step; RESET and the outside agent leave a generator that is not Ready. -/
theorem storeStaysInSync : Obligations.StoreStaysInSync := by
  intro s u _ hs hok h
  obtain ⟨-, rfl⟩ | ⟨w, t, hn, ht, rfl⟩ | ⟨-, rfl⟩ | ⟨c, -, hu, rfl⟩ := step_cases h
  · exact hs
  · have hsync : t.InSync := exec_keeps_inSync (decodeWord_wellFormed w) ht hs (hok w hn)
    exact hsync
  · exact fun hr => nomatch hr
  · exact fun hr => nomatch hu.symm.trans hr

end Sys2Proof.Machine
end

section
/-! PROOFS. The statements about the faults (spec/60_exceptions.md): what raises each cause, what the fatal state still
lets happen, and the step out of it. -/

namespace Sys2Proof.Machine

/-! ### Who raises which cause -/

/-- The instruction raises the cause when it starts: the table of 60 R231, row by row. -/
def State.Raises (s : State) (i : Instr) : Cause → Prop
  | .notKeyed => (i = .enc ∨ i = .dec) ∧ s.keyedU = false
  | .keySize => i = .setkey ∧ s.keyinMask ≠ 0xFFFFFFFF#32
  | .illegalCommand => ∃ op, i = .illegal op

/-- In a running engine the fault is all that such an instruction does (60 R233). -/
theorem exec_of_raises {s : State} {i : Instr} {c : Cause} (hf : s.fatal = false) (h : s.Raises i c) :
    exec i s = .next (raiseFatal c s) := by
  cases c with
  | notKeyed =>
    obtain ⟨rfl | rfl, hk⟩ := h
    · exact startCommand_blockCommand_unkeyed hf hk
    · exact startCommand_blockCommand_unkeyed hf hk
  | keySize =>
    obtain ⟨rfl, hm⟩ := h
    exact (exec_setkey_running hf).trans (setKeyCommand_incomplete hm)
  | illegalCommand =>
    obtain ⟨op, rfl⟩ := h
    exact exec_illegal_running hf op

/-- No other instruction writes the fatal bit or the cause. -/
theorem Effect.raises_or_keeps_fault {s t : State} {i : Instr} (h : Effect s i t) :
    (∃ c, s.Raises i c ∧ t = raiseFatal c s) ∨ (t.fatal = s.fatal ∧ t.cause = s.cause) := by
  cases h with
  | keySize _ hm => exact .inl ⟨.keySize, ⟨rfl, hm⟩, rfl⟩
  | notKeyed hi _ hc => exact .inl ⟨.notKeyed, ⟨hi, by simp [State.keyedU, hc]⟩, rfl⟩
  | illegal => exact .inl ⟨.illegalCommand, ⟨_, rfl⟩, rfl⟩
  | generator hi h =>
    have hframe := exec_generator_frame hi h
    exact .inr ⟨hframe.fatal, hframe.cause⟩
  | _ => exact .inr ⟨rfl, rfl⟩

theorem causeCode_le (c : Cause) : causeCode c ≤ 3#4 := by cases c <;> decide

theorem causeCode_ne_zero (c : Cause) : causeCode c ≠ 0#4 := by cases c <;> decide

/-- Settles O33: an instruction raises the cause of its row, or keeps the fault bits. -/
theorem faultTable : Obligations.FaultTable := by
  intro s t i hw hf h notKeyed keySize illegalCommand
  have raises_eq (c : Cause) (hc : s.Raises i c) : t = raiseFatal c s := by
    cases h.symm.trans (exec_of_raises hf hc)
    rfl
  have hcases := (exec_effect hw h).raises_or_keeps_fault
  refine ⟨raises_eq .notKeyed, raises_eq .keySize, raises_eq .illegalCommand, fun h1 h2 h3 => ?_, fun h0 => ?_⟩
  · obtain ⟨c, hc, -⟩ | ⟨hfatal, hcause⟩ := hcases
    · cases c with
      | notKeyed => exact absurd hc h1
      | keySize => exact absurd hc h2
      | illegalCommand => exact absurd hc h3
    · exact ⟨hfatal.trans hf, hcause⟩
  · obtain ⟨c, -, rfl⟩ | ⟨hfatal, hcause⟩ := hcases
    · simp [causeCode_le, causeCode_ne_zero]
    · simp [hfatal, hcause, hf, h0]

/-! ### The fatal state -/

/-- The fatal state ignores every command and every write (60 R234). -/
theorem exec_fatal_of_not_read {s : State} (hf : s.fatal = true) {i : Instr} (hi : i.isRead = false) :
    exec i s = .next s := by
  cases i with
  | setkey => exact startCommand_fatal hf
  | enc => exact startCommand_fatal hf
  | dec => exact startCommand_fatal hf
  | ginit => exact exec_generator_fatal rfl hf
  | advance => exact exec_generator_fatal rfl hf
  | nextbyte => exact exec_generator_fatal rfl hf
  | illegal op => exact startCommand_fatal hf
  | wr a d => exact exec_wr_fatal hf a d
  | isinit d => cases hi
  | rdbyte d => cases hi
  | rd a d => cases hi

/-- A read answers in every state, the fatal ones included (20 R61). -/
theorem exec_read {i : Instr} (hi : i.isRead = true) (s : State) : ∃ b, exec i s = .next (respond b s) := by
  cases i with
  | isinit d => exact ⟨_, rfl⟩
  | rdbyte d => exact ⟨_, rfl⟩
  | rd a d => exact ⟨_, rfl⟩
  | _ => cases hi

/-- Settles O34: only the reads do not look at the fatal bit. -/
theorem fatalStateIsFrozen : Obligations.FatalStateIsFrozen := fun _ hf =>
  ⟨fun _ => exec_fatal_of_not_read hf, fun _ _ => ⟨rfl, rfl, rfl⟩⟩

/-! ### The way out of the fatal state -/

/-- In the fatal state an instruction changes nothing but the results of the run (60 R234). -/
theorem exec_fatal_frame {s t : State} (hf : s.fatal = true) {i : Instr} (h : exec i s = .next t) :
    t = { s with returned := t.returned } := by
  cases hi : i.isRead with
  | false =>
    cases (exec_fatal_of_not_read hf hi).symm.trans h
    rfl
  | true =>
    obtain ⟨b, hb⟩ := exec_read hi s
    cases hb.symm.trans h
    rfl

/-- A step from the fatal state is the RESET event, or changes nothing but the index, the results of the run and, by
the outside agent alone, the store (60 R235; log entry 9). -/
theorem step_fatal_cases {s u : State} (hf : s.fatal = true) (h : step s = .next u) :
    (nextItem s = some .reset ∧ u = advancePos (resetEngine s)) ∨
    (u = { s with pos := u.pos, returned := u.returned, store := u.store } ∧
      ((∀ c, nextItem s ≠ some (.outsideStore c)) → u.store = s.store)) := by
  obtain ⟨-, rfl⟩ | ⟨w, t, -, ht, rfl⟩ | hreset | ⟨c, hn, -, rfl⟩ := step_cases h
  · exact .inr ⟨rfl, fun _ => rfl⟩
  · rw [exec_fatal_frame hf ht]
    exact .inr ⟨rfl, fun _ => rfl⟩
  · exact .inl hreset
  · exact .inr ⟨rfl, fun hno => absurd hn (hno c)⟩

theorem State.AsReset.advancePos {s : State} (h : s.AsReset) : (advancePos s).AsReset := { h with }

/-- Settles O35, by the two cases of a step from the fatal state. -/
theorem onlyResetLeavesTheFatalState : Obligations.OnlyResetLeavesTheFatalState := by
  intro s u hf h
  obtain ⟨hn, rfl⟩ | ⟨hu, hstore⟩ := step_fatal_cases hf h
  · exact .inl ⟨hn, (resetEngine_asReset s).advancePos, rfl⟩
  · rw [hu]
    exact .inr ⟨hf, rfl, rfl, rfl, rfl, rfl, rfl, rfl, rfl, rfl, rfl, rfl, rfl, hstore⟩

end Sys2Proof.Machine
end

section
/-! PROOFS. The statements about the reset and the hazards of the durable store (spec/70_reset_and_hazards.md): who else
may change the store and when, and what a failed write replays. -/

namespace Sys2Proof.Machine

/-! ### The outside agent -/

theorem outsideStore_uninitialized {s : State} (hu : s.gstate = .uninitialized) (c : Option (List Byte)) :
    outsideStore c s = .next { s with store := c } := if_pos hu

theorem outsideStore_started {s : State} (hu : s.gstate ≠ .uninitialized) (c : Option (List Byte)) :
    outsideStore c s = .refused .foreignStoreWrite := if_neg hu

/-- Settles O14, from the two cases of `outsideStore`. -/
theorem outsideAgentOnlyBeforeInitialisation : Obligations.OutsideAgentOnlyBeforeInitialisation := by
  intro s c hn
  have hstep : step s = andThen (outsideStore c s) (fun t => .next (advancePos t)) := step_of_nextItem hn
  refine ⟨fun hu => ?_, fun hu => ?_⟩
  · rw [hstep, outsideStore_uninitialized hu]
    rfl
  · rw [hstep, outsideStore_started hu]
    rfl

/-! ### Replay after a failed write -/

/-- A failed write leaves the store, unless it loses the record on a platform that corrupts (20 R67). -/
theorem storeAfter_of_failure {p : Params} {w : WriteOutcome} (rec : List Byte) (old : Option (List Byte))
    (h : w = .failKept ∨ (w = .failLost ∧ p.persistFailCorrupts = false)) : storeAfter p rec old w = old := by
  obtain rfl | ⟨rfl, hp⟩ := h
  · rfl
  · simp [storeAfter, hp]

/-- Settles O52: the failed write leaves the record of the triple, and the advance after the reset goes on from it. -/
theorem failedWriteThenResetReplays : Obligations.FailedWriteThenResetReplays := by
  intro s t c hf hr hrec hfail
  have hstore : (s.advancedTo (nextKeystreamBlock t)).store = s.store := storeAfter_of_failure _ _ hfail
  obtain ⟨v, hv, htriple⟩ :=
    exec_advance_of_record (s := resetEngine (s.advancedTo (nextKeystreamBlock t))) rfl rfl (hstore.symm ▸ hrec)
  exact ⟨_, v, exec_advance_ready hf hr, rfl, hf, hstore, hv, htriple⟩

end Sys2Proof.Machine
end
